-- ==== Sys2Proof/Word.lean ====
section
/-! DEFINITION. The word types of the block: a byte, an unsigned 16-bit value, and a frame of exactly ten bytes
(spec/00_scope.md R8, R9; spec/30_encoding.md R80). FRAME_LEN = 10 of rule R6 is the length in the type `Frame`. -/

namespace Sys2Proof

/-- A *byte* is an unsigned 8-bit value (R8). -/
abbrev Byte := BitVec 8

/-- An unsigned 16-bit value: a track operand, the checksum (R8, R120). -/
abbrev Half := BitVec 16

/-- A frame: ten bytes, `F[0]` sent and received first (R9, R80). The ten registers of `buf` and of `txframe` have the
same shape (R20), so they are frames too. -/
abbrev Frame := Vector Byte 10

end Sys2Proof
end

