-- ==== Sys2Proof/Config.lean ====
section
/-! DEFINITION. The constants of spec/00_scope.md R6 and the parameter BUF_CLEAR of R7, as a configuration record whose
default values are the spec's. FRAME_LEN is the length in the type `Frame`; the 18 command identifiers are the table of
R86 (Machine/Operands.lean). -/

namespace Sys2Proof

/-- The named constants of R6, and BUF_CLEAR of R7 (decisions D6, D7). -/
structure Config where
  /-- START_MARKER, frame byte 0. -/
  startMarker : Byte := 0x7E
  /-- VERSION, frame byte 1. -/
  version : Byte := 0xFF
  /-- LENGTH, frame byte 2. -/
  length : Byte := 0x06
  /-- FEEDBACK_NONE, frame byte 4. -/
  feedbackNone : Byte := 0x00
  /-- END_MARKER, frame byte 9. -/
  endMarker : Byte := 0xEF
  volumeMin : Byte := 0
  volumeMax : Byte := 30
  trackMin : Half := 0
  trackMax : Half := 9999
  folderMin : Byte := 0
  folderMax : Byte := 99
  /-- CKSUM_FIRST: the first frame offset the checksum sums. -/
  cksumFirst : Nat := 1
  /-- CKSUM_LAST: the last frame offset the checksum sums, inclusive. -/
  cksumLast : Nat := 6
  /-- QUERY_VOLUME_ID: equal to the identifier of Next (spec/90_conflicts.md C8). -/
  queryVolumeId : Byte := 0x01
  /-- BUF_CLEAR: the value every buffer byte takes when the buffer is reset (D6, D7). -/
  bufClear : Byte := 0x00
  deriving DecidableEq, Repr

/-- The configuration of the block: every constant at the value the spec gives it. -/
def config : Config := {}

end Sys2Proof
end

