-- ==== Sys2Proof/Syntax.lean ====
section
/-! DEFINITION. The operand types of the encoder (spec/40_command_model.md R120, R121, R126 to R129) and the ONE inductive
`Instr`: a constructor for every row of spec/opcode_table.json. -/

namespace Sys2Proof

/-- The closed set of four playback modes (R126); `repeatAll` is the spec's Repeat, whose name is a word of Lean's. -/
inductive PlaybackMode where
  | repeatAll | folderRepeat | singleRepeat | random
  deriving DecidableEq, Repr

/-- The closed set of six equalizer settings (R127). -/
inductive Equalizer where
  | normal | pop | rock | jazz | classic | bass
  deriving DecidableEq, Repr

/-- The peripheral-reported State of R128, seven members. It is not the state of this block. -/
inductive PeripheralState where
  | busy | sleeping | serialWrongStack | checkSumNotMatch | fileIndexOut | fileMismatch | advertise
  deriving DecidableEq, Repr

/-- The peripheral-reported Device of R129, five members. -/
inductive Device where
  | uDisk | sd | aux | sleep | flash
  deriving DecidableEq, Repr

/-- The four boundary enumerations (R126 to R129), as the argument of a byte conversion (R130). -/
inductive EnumKind where
  | playbackMode | equalizer | peripheralState | device
  deriving DecidableEq, Repr

/-- A member of one of the four boundary enumerations: what a conversion that succeeds hands over (R130). -/
inductive Member where
  | playbackMode (m : PlaybackMode)
  | equalizer (e : Equalizer)
  | peripheralState (p : PeripheralState)
  | device (d : Device)
  deriving DecidableEq, Repr

/-- The 18 Command variants with their operands (R120). A Command holds any operand of its type; the clamp is applied by
the encoder (R122, R123). -/
inductive Command where
  | next
  | previous
  | specifyTrack (track : Half)
  | increaseVolume
  | decreaseVolume
  | specifyVolume (volume : Byte)
  | specifyEqualizer (eq : Equalizer)
  | specifyPlaybackMode (mode : PlaybackMode)
  | standby
  | normalWorking
  | resetModule
  | playback
  | pause
  | specifyFolder (folder subtrack : Byte)
  | specifyMp3Track (track : Half)
  | specifyAdvertisement (track : Half)
  | stopAdvertisement
  | stop
  deriving DecidableEq, Repr

/-- The 7 Query variants; none has an operand (R121). -/
inductive Query where
  | status | volume | equalizer | playbackMode | softwareVersion | fileCountInFolder | folderCount
  deriving DecidableEq, Repr

/-- What `encode` and `send` take: a Command or a Query (R150, R190, R214). -/
inductive Message where
  | command (c : Command)
  | query (q : Query)
  deriving DecidableEq, Repr

/-- The operations of the block, one constructor per row of spec/opcode_table.json, in the table's order. A command or
query row is `encode` of that variant (R152 to R169, R191 to R197); an `rx` row is `rx_step` together with the transport's
answer (R103, R232 to R238). -/
inductive Instr where
  | next
  | previous
  | specifyTrack (track : Half)
  | increaseVolume
  | decreaseVolume
  | specifyVolume (volume : Byte)
  | specifyEqualizer (eq : Equalizer)
  | specifyPlaybackMode (mode : PlaybackMode)
  | standby
  | normalWorking
  | resetModule
  | playback
  | pause
  | specifyFolder (folder subtrack : Byte)
  | specifyMp3Track (track : Half)
  | specifyAdvertisement (track : Half)
  | stopAdvertisement
  | stop
  | queryVolume
  | queryStatus
  | queryEqualizer
  | queryPlaybackMode
  | querySoftwareVersion
  | queryFileCountInFolder
  | queryFolderCount
  | transmit (frame : Frame)
  | send (message : Message)
  | rxStart
  | rxEnd
  | rxData (byte : Byte)
  | rxNoData
  | rxReadError
  deriving DecidableEq, Repr

/-- The table row of `encode` of a Command (R150). -/
def Command.instr : Command → Instr
  | .next => .next
  | .previous => .previous
  | .specifyTrack t => .specifyTrack t
  | .increaseVolume => .increaseVolume
  | .decreaseVolume => .decreaseVolume
  | .specifyVolume v => .specifyVolume v
  | .specifyEqualizer e => .specifyEqualizer e
  | .specifyPlaybackMode m => .specifyPlaybackMode m
  | .standby => .standby
  | .normalWorking => .normalWorking
  | .resetModule => .resetModule
  | .playback => .playback
  | .pause => .pause
  | .specifyFolder f k => .specifyFolder f k
  | .specifyMp3Track t => .specifyMp3Track t
  | .specifyAdvertisement t => .specifyAdvertisement t
  | .stopAdvertisement => .stopAdvertisement
  | .stop => .stop

/-- The table row of `encode` of a Query (R190). -/
def Query.instr : Query → Instr
  | .status => .queryStatus
  | .volume => .queryVolume
  | .equalizer => .queryEqualizer
  | .playbackMode => .queryPlaybackMode
  | .softwareVersion => .querySoftwareVersion
  | .fileCountInFolder => .queryFileCountInFolder
  | .folderCount => .queryFolderCount

/-- The table row of `encode` of a Command or Query. -/
def Message.instr : Message → Instr
  | .command c => c.instr
  | .query q => q.instr

end Sys2Proof
end

