-- ==== Sys2Proof/Machine/Operands.lean ====
section
/-! DEFINITION. Every operand form of the block: byte slices, the saturating clamp (spec/40_command_model.md R123, R124),
the enumeration codes and their conversions (R126 to R130), the identifier table and the parameter forms
(spec/30_encoding.md R85 to R91). None of it reads or writes state. -/

namespace Sys2Proof

/-! ### Slices of a 16-bit value (spec/00_scope.md R8, spec/20_memory.md R52) -/

/-- `hi8(v) = v[15:8]`. -/
def hi8 (v : Half) : Byte := v.extractLsb' 8 8

/-- `lo8(v) = v[7:0]`. -/
def lo8 (v : Half) : Byte := v.extractLsb' 0 8

/-- Two bytes read as a big-endian 16-bit value (R52). -/
def joinBytes (hi lo : Byte) : Half := hi ++ lo

/-! ### The clamp -/

/-- `clamp(v, lo, hi)` of R123: unsigned and saturating, never an error. -/
def clamp {w : Nat} (v lo hi : BitVec w) : BitVec w :=
  if v < lo then lo else if hi < v then hi else v

/-- The Command with its operands clamped to the domains of R124. -/
def Command.clamped : Command → Command
  | .next => .next
  | .previous => .previous
  | .specifyTrack t => .specifyTrack t
  | .increaseVolume => .increaseVolume
  | .decreaseVolume => .decreaseVolume
  | .specifyVolume v => .specifyVolume (clamp v config.volumeMin config.volumeMax)
  | .specifyEqualizer e => .specifyEqualizer e
  | .specifyPlaybackMode m => .specifyPlaybackMode m
  | .standby => .standby
  | .normalWorking => .normalWorking
  | .resetModule => .resetModule
  | .playback => .playback
  | .pause => .pause
  | .specifyFolder f k => .specifyFolder (clamp f config.folderMin config.folderMax) k
  | .specifyMp3Track t => .specifyMp3Track (clamp t config.trackMin config.trackMax)
  | .specifyAdvertisement t => .specifyAdvertisement (clamp t config.trackMin config.trackMax)
  | .stopAdvertisement => .stopAdvertisement
  | .stop => .stop

/-! ### Enumeration codes (R126 to R129) and conversions (R130) -/

def PlaybackMode.code : PlaybackMode → Byte
  | .repeatAll => 0x00
  | .folderRepeat => 0x01
  | .singleRepeat => 0x02
  | .random => 0x03

def Equalizer.code : Equalizer → Byte
  | .normal => 0x00
  | .pop => 0x01
  | .rock => 0x02
  | .jazz => 0x03
  | .classic => 0x04
  | .bass => 0x05

def PeripheralState.code : PeripheralState → Byte
  | .busy => 0x01
  | .sleeping => 0x02
  | .serialWrongStack => 0x03
  | .checkSumNotMatch => 0x04
  | .fileIndexOut => 0x05
  | .fileMismatch => 0x06
  | .advertise => 0x07

def Device.code : Device → Byte
  | .uDisk => 0x01
  | .sd => 0x02
  | .aux => 0x03
  | .sleep => 0x04
  | .flash => 0x05

/-- `of_byte_PlaybackMode`; none is ConversionFailure. -/
def PlaybackMode.ofByte (b : Byte) : Option PlaybackMode :=
  if b = 0x00 then some .repeatAll
  else if b = 0x01 then some .folderRepeat
  else if b = 0x02 then some .singleRepeat
  else if b = 0x03 then some .random
  else none

/-- `of_byte_Equalizer`; none is ConversionFailure. -/
def Equalizer.ofByte (b : Byte) : Option Equalizer :=
  if b = 0x00 then some .normal
  else if b = 0x01 then some .pop
  else if b = 0x02 then some .rock
  else if b = 0x03 then some .jazz
  else if b = 0x04 then some .classic
  else if b = 0x05 then some .bass
  else none

/-- `of_byte_State`; none is ConversionFailure. -/
def PeripheralState.ofByte (b : Byte) : Option PeripheralState :=
  if b = 0x01 then some .busy
  else if b = 0x02 then some .sleeping
  else if b = 0x03 then some .serialWrongStack
  else if b = 0x04 then some .checkSumNotMatch
  else if b = 0x05 then some .fileIndexOut
  else if b = 0x06 then some .fileMismatch
  else if b = 0x07 then some .advertise
  else none

/-- `of_byte_Device`; none is ConversionFailure. -/
def Device.ofByte (b : Byte) : Option Device :=
  if b = 0x01 then some .uDisk
  else if b = 0x02 then some .sd
  else if b = 0x03 then some .aux
  else if b = 0x04 then some .sleep
  else if b = 0x05 then some .flash
  else none

/-- `code_E` of R130, for a member of any of the four enumerations. -/
def Member.code : Member → Byte
  | .playbackMode m => m.code
  | .equalizer e => e.code
  | .peripheralState p => p.code
  | .device d => d.code

/-- The enumeration a member belongs to. -/
def Member.kind : Member → EnumKind
  | .playbackMode _ => .playbackMode
  | .equalizer _ => .equalizer
  | .peripheralState _ => .peripheralState
  | .device _ => .device

/-- `of_byte_E` of R130: the member whose code the byte is, never a coerced one. -/
def EnumKind.convert (k : EnumKind) (b : Byte) : Option Member :=
  match k with
  | .playbackMode => (PlaybackMode.ofByte b).map .playbackMode
  | .equalizer => (Equalizer.ofByte b).map .equalizer
  | .peripheralState => (PeripheralState.ofByte b).map .peripheralState
  | .device => (Device.ofByte b).map .device

/-! ### Identifiers (R83, R86, R87) -/

/-- `id(c)`: total, one arm per variant and no default (R83, R86). -/
def Command.id : Command → Byte
  | .next => 0x01
  | .previous => 0x02
  | .specifyTrack _ => 0x03
  | .increaseVolume => 0x04
  | .decreaseVolume => 0x05
  | .specifyVolume _ => 0x06
  | .specifyEqualizer _ => 0x07
  | .specifyPlaybackMode _ => 0x08
  | .standby => 0x0A
  | .normalWorking => 0x0B
  | .resetModule => 0x0C
  | .playback => 0x0D
  | .pause => 0x0E
  | .specifyFolder _ _ => 0x0F
  | .specifyMp3Track _ => 0x12
  | .specifyAdvertisement _ => 0x13
  | .stopAdvertisement => 0x15
  | .stop => 0x16

/-- The identifier of a query: Volume alone has one (R87). -/
def Query.id : Query → Option Byte
  | .status => none
  | .volume => some config.queryVolumeId
  | .equalizer => none
  | .playbackMode => none
  | .softwareVersion => none
  | .fileCountInFolder => none
  | .folderCount => none

/-! ### Parameter forms (R85, R90, R91) -/

/-- The four forms in which the two parameter bytes are assembled (R85). -/
inductive ParamForm where
  /-- No operand. -/
  | p0
  /-- One 16-bit operand. -/
  | p16 (p : Half)
  /-- A pair of 8-bit operands. -/
  | p8x2 (a b : Byte)
  /-- One 8-bit operand. -/
  | p8 (a : Byte)
  deriving DecidableEq, Repr

/-- Parameter byte `F[5]` (R85). -/
def ParamForm.first : ParamForm → Byte
  | .p0 => 0x00
  | .p16 p => hi8 p
  | .p8x2 a _ => a
  | .p8 _ => 0x00

/-- Parameter byte `F[6]` (R85). -/
def ParamForm.second : ParamForm → Byte
  | .p0 => 0x00
  | .p16 p => lo8 p
  | .p8x2 _ b => b
  | .p8 a => a

/-- The parameter form a Command owns, its operands clamped (R86, R124). -/
def Command.params (c : Command) : ParamForm :=
  match c.clamped with
  | .next => .p0
  | .previous => .p0
  | .specifyTrack t => .p16 t
  | .increaseVolume => .p0
  | .decreaseVolume => .p0
  | .specifyVolume v => .p8 v
  | .specifyEqualizer e => .p8 e.code
  | .specifyPlaybackMode m => .p8 m.code
  | .standby => .p0
  | .normalWorking => .p0
  | .resetModule => .p0
  | .playback => .p0
  | .pause => .p0
  | .specifyFolder f k => .p8x2 f k
  | .specifyMp3Track t => .p16 t
  | .specifyAdvertisement t => .p16 t
  | .stopAdvertisement => .p0
  | .stop => .p0

/-! ### Checksum (R92) -/

/-- `sum16(F)`: the bytes at the offsets CKSUM_FIRST to CKSUM_LAST, each zero-extended, added with wrap-around at
16 bits. -/
def sum16 (F : Frame) : Half :=
  ((F.toList.drop config.cksumFirst).take (config.cksumLast + 1 - config.cksumFirst)).foldl
    (fun acc b => acc + b.zeroExtend 16) 0

/-- `cksum(F) = (0 - sum16(F)) mod 2^16`. -/
def cksum (F : Frame) : Half := 0 - sum16 F

end Sys2Proof
end

