-- ==== Sys2Proof/WellFormed.lean ====
section
/-! DEFINITION. When an instruction is written as its bit pattern carries it: a clamped operand stands in its domain
(spec/40_command_model.md R124) and the byte of RX_DATA is not a marker (spec/30_encoding.md R98). An operand outside its
domain is no error of the machine, which clamps it (R122, R123); it only is not the operand the frame carries. -/

namespace Sys2Proof

/-- The operands of a Command stand in the domains of R124. -/
def Command.wellFormed : Command → Bool
  | .next => true
  | .previous => true
  | .specifyTrack _ => true
  | .increaseVolume => true
  | .decreaseVolume => true
  | .specifyVolume v => config.volumeMin ≤ v && v ≤ config.volumeMax
  | .specifyEqualizer _ => true
  | .specifyPlaybackMode _ => true
  | .standby => true
  | .normalWorking => true
  | .resetModule => true
  | .playback => true
  | .pause => true
  | .specifyFolder f _ => config.folderMin ≤ f && f ≤ config.folderMax
  | .specifyMp3Track t => config.trackMin ≤ t && t ≤ config.trackMax
  | .specifyAdvertisement t => config.trackMin ≤ t && t ≤ config.trackMax
  | .stopAdvertisement => true
  | .stop => true

/-- The Command of a message is well formed; a query has no operand. -/
def Message.wellFormed : Message → Bool
  | .command c => c.wellFormed
  | .query _ => true

/-- A byte of the class DATA: neither marker (R98). -/
def isDataByte (b : Byte) : Bool := b != config.startMarker && b != config.endMarker

/-- The instruction is written as its bit pattern carries it. -/
def Instr.wellFormed : Instr → Bool
  | .next => true
  | .previous => true
  | .specifyTrack _ => true
  | .increaseVolume => true
  | .decreaseVolume => true
  | .specifyVolume v => (Command.specifyVolume v).wellFormed
  | .specifyEqualizer _ => true
  | .specifyPlaybackMode _ => true
  | .standby => true
  | .normalWorking => true
  | .resetModule => true
  | .playback => true
  | .pause => true
  | .specifyFolder f k => (Command.specifyFolder f k).wellFormed
  | .specifyMp3Track t => (Command.specifyMp3Track t).wellFormed
  | .specifyAdvertisement t => (Command.specifyAdvertisement t).wellFormed
  | .stopAdvertisement => true
  | .stop => true
  | .queryVolume => true
  | .queryStatus => true
  | .queryEqualizer => true
  | .queryPlaybackMode => true
  | .querySoftwareVersion => true
  | .queryFileCountInFolder => true
  | .queryFolderCount => true
  | .transmit _ => true
  | .send m => m.wellFormed
  | .rxStart => true
  | .rxEnd => true
  | .rxData b => isDataByte b
  | .rxNoData => true
  | .rxReadError => true

end Sys2Proof
end

