-- ==== Sys2Proof/Decode.lean ====
section
/-! DEFINITION. The decoder: total on any list of bytes, rejecting by name; then the encoder, written from the rows of
spec/opcode_table.json, and `decodeTableWord`, which reads a number as the table numbers it. A pattern is ten bytes (a frame,
spec/30_encoding.md R81) or one byte (a received byte, R98); the NO_FRAME rows have none (R96). -/

namespace Sys2Proof

/-- Why a list of bytes is the pattern of no row. -/
inductive DecodeError where
  /-- Neither ten bytes nor one. -/
  | size
  /-- `F[0]` is not START_MARKER. -/
  | startMarker
  /-- `F[1]` is not VERSION. -/
  | version
  /-- `F[2]` is not LENGTH. -/
  | length
  /-- `F[4]` is not FEEDBACK_NONE (R84). -/
  | feedback
  /-- `F[9]` is not END_MARKER. -/
  | endMarker
  /-- `F[7..8]` is not the checksum of `F[1..6]` (the table's note on every row with a checksum field). -/
  | checksum
  /-- `F[3]` is an identifier no variant has (R95). -/
  | identifier
  /-- `F[5..6]` are parameter bytes the variant's row never carries: a nonzero padding byte, an operand outside its clamp
  domain, a byte outside the closed enumeration. -/
  | parameter
  deriving DecidableEq, Repr

/-! ### The decoder -/

/-- Accept `i` where the parameter bytes are ones its row carries. -/
def acceptIf (ok : Bool) (i : Instr) : Except DecodeError Instr :=
  if ok then .ok i else .error .parameter

/-- Accept the enumeration operand of a P8 row: `F[5]` is zero and `F[6]` converts (R85, R130). -/
def acceptCode {α : Type} (p5 : Byte) (member : Option α) (mk : α → Instr) : Except DecodeError Instr :=
  match member with
  | some a => acceptIf (p5 == 0x00) (mk a)
  | none => .error .parameter

/-- The rows of the table that are frames a decoder can tell apart: the 18 commands. Query Volume is no row of its own here,
since a decoder cannot tell it from Next (spec/90_conflicts.md C8, the note of the table's row QUERY_VOLUME). -/
inductive FrameRow where
  | next | previous | specifyTrack | increaseVolume | decreaseVolume | specifyVolume | specifyEqualizer | specifyPlaybackMode | standby
  | normalWorking | resetModule | playback | pause | specifyFolder | specifyMp3Track | specifyAdvertisement | stopAdvertisement | stop
  deriving DecidableEq, Repr

/-- The rows in the table's order. -/
def frameRows : List FrameRow :=
  [.next, .previous, .specifyTrack, .increaseVolume, .decreaseVolume, .specifyVolume, .specifyEqualizer, .specifyPlaybackMode, .standby,
    .normalWorking, .resetModule, .playback, .pause, .specifyFolder, .specifyMp3Track, .specifyAdvertisement, .stopAdvertisement, .stop]

/-- The row's byte at offset 3, from its `match`. -/
def FrameRow.ident : FrameRow → Byte
  | .next => 0x01
  | .previous => 0x02
  | .specifyTrack => 0x03
  | .increaseVolume => 0x04
  | .decreaseVolume => 0x05
  | .specifyVolume => 0x06
  | .specifyEqualizer => 0x07
  | .specifyPlaybackMode => 0x08
  | .standby => 0x0A
  | .normalWorking => 0x0B
  | .resetModule => 0x0C
  | .playback => 0x0D
  | .pause => 0x0E
  | .specifyFolder => 0x0F
  | .specifyMp3Track => 0x12
  | .specifyAdvertisement => 0x13
  | .stopAdvertisement => 0x15
  | .stop => 0x16

/-- The instruction of a row whose frame carries the parameter bytes `p5` and `p6` (R85, R86). -/
def FrameRow.read (row : FrameRow) (p5 p6 : Byte) : Except DecodeError Instr :=
  match row with
  | .next => acceptIf (p5 == 0x00 && p6 == 0x00) .next
  | .previous => acceptIf (p5 == 0x00 && p6 == 0x00) .previous
  | .specifyTrack => .ok (.specifyTrack (joinBytes p5 p6))
  | .increaseVolume => acceptIf (p5 == 0x00 && p6 == 0x00) .increaseVolume
  | .decreaseVolume => acceptIf (p5 == 0x00 && p6 == 0x00) .decreaseVolume
  | .specifyVolume => acceptIf (p5 == 0x00 && (Command.specifyVolume p6).wellFormed) (.specifyVolume p6)
  | .specifyEqualizer => acceptCode p5 (Equalizer.ofByte p6) .specifyEqualizer
  | .specifyPlaybackMode => acceptCode p5 (PlaybackMode.ofByte p6) .specifyPlaybackMode
  | .standby => acceptIf (p5 == 0x00 && p6 == 0x00) .standby
  | .normalWorking => acceptIf (p5 == 0x00 && p6 == 0x00) .normalWorking
  | .resetModule => acceptIf (p5 == 0x00 && p6 == 0x00) .resetModule
  | .playback => acceptIf (p5 == 0x00 && p6 == 0x00) .playback
  | .pause => acceptIf (p5 == 0x00 && p6 == 0x00) .pause
  | .specifyFolder => acceptIf (Command.specifyFolder p5 p6).wellFormed (.specifyFolder p5 p6)
  | .specifyMp3Track => acceptIf (Command.specifyMp3Track (joinBytes p5 p6)).wellFormed (.specifyMp3Track (joinBytes p5 p6))
  | .specifyAdvertisement => acceptIf (Command.specifyAdvertisement (joinBytes p5 p6)).wellFormed (.specifyAdvertisement (joinBytes p5 p6))
  | .stopAdvertisement => acceptIf (p5 == 0x00 && p6 == 0x00) .stopAdvertisement
  | .stop => acceptIf (p5 == 0x00 && p6 == 0x00) .stop

/-- The row with identifier `id`, read with its parameter bytes; an identifier no row has is rejected (R95). -/
def decodeBody (id p5 p6 : Byte) : Except DecodeError Instr :=
  match frameRows.find? fun row => row.ident == id with
  | some row => row.read p5 p6
  | none => .error .identifier

/-- The check form of R93: six summed bytes plus the big-endian checksum are 0 modulo 2^16. -/
def checksumHolds (f1 f2 f3 f4 f5 f6 f7 f8 : Byte) : Bool :=
  (f1.toNat + f2.toNat + f3.toNat + f4.toNat + f5.toNat + f6.toNat + 256 * f7.toNat + f8.toNat) % 65536 == 0

/-- Decode ten bytes as a frame: the static bytes (R82), then the checksum, then the row. -/
def decodeFrame (f0 f1 f2 f3 f4 f5 f6 f7 f8 f9 : Byte) : Except DecodeError Instr :=
  if f0 ≠ 0x7E then .error .startMarker
  else if f1 ≠ 0xFF then .error .version
  else if f2 ≠ 0x06 then .error .length
  else if f4 ≠ 0x00 then .error .feedback
  else if f9 ≠ 0xEF then .error .endMarker
  else if checksumHolds f1 f2 f3 f4 f5 f6 f7 f8 then decodeBody f3 f5 f6
  else .error .checksum

/-- The class of a received byte, by its value alone and in the order START, END, DATA (R98). -/
def decodeRxByte (b : Byte) : Instr :=
  if b = 0x7E then .rxStart else if b = 0xEF then .rxEnd else .rxData b

/-- The instruction whose bit pattern the bytes are. -/
def decode : List Byte → Except DecodeError Instr
  | [b] => .ok (decodeRxByte b)
  | [f0, f1, f2, f3, f4, f5, f6, f7, f8, f9] => decodeFrame f0 f1 f2 f3 f4 f5 f6 f7 f8 f9
  | _ => .error .size

/-! ### The encoder -/

/-- `n` bytes of the number `w`, the most significant first: `FRAME80(F) = F[0] ++ ... ++ F[9]` read back (R9). -/
def tableBytes (n w : Nat) : List Byte :=
  (List.range n).map fun i => BitVec.ofNat 8 (w / 256 ^ (n - 1 - i))

/-- The ten bytes of a row with operand fields: the static bytes of its `match`, the two parameter bytes, and the computed
field `c`, which in plain integers is `0xFEFB - F[3] - F[5] - F[6]` (R93). -/
def rowWithFields (id p5 p6 : Byte) : List Byte :=
  let c : Half := BitVec.ofNat 16 (0xFEFB - id.toNat - p5.toNat - p6.toNat)
  [0x7E, 0xFF, 0x06, id, 0x00, p5, p6, hi8 c, lo8 c, 0xEF]

/-- The bytes of the instruction's bit pattern, row by row from spec/opcode_table.json; none for a NO_FRAME row. An
operand stands in the row "after clamp". -/
def encode : Instr → Option (List Byte)
  | .next => some (tableBytes 10 0x7EFF0601000000FEFAEF)
  | .previous => some (tableBytes 10 0x7EFF0602000000FEF9EF)
  | .specifyTrack t => some (rowWithFields 0x03 (hi8 t) (lo8 t))
  | .increaseVolume => some (tableBytes 10 0x7EFF0604000000FEF7EF)
  | .decreaseVolume => some (tableBytes 10 0x7EFF0605000000FEF6EF)
  | .specifyVolume v => some (rowWithFields 0x06 0x00 (clamp v config.volumeMin config.volumeMax))
  | .specifyEqualizer e => some (rowWithFields 0x07 0x00 e.code)
  | .specifyPlaybackMode m => some (rowWithFields 0x08 0x00 m.code)
  | .standby => some (tableBytes 10 0x7EFF060A000000FEF1EF)
  | .normalWorking => some (tableBytes 10 0x7EFF060B000000FEF0EF)
  | .resetModule => some (tableBytes 10 0x7EFF060C000000FEEFEF)
  | .playback => some (tableBytes 10 0x7EFF060D000000FEEEEF)
  | .pause => some (tableBytes 10 0x7EFF060E000000FEEDEF)
  | .specifyFolder f k => some (rowWithFields 0x0F (clamp f config.folderMin config.folderMax) k)
  | .specifyMp3Track t =>
    some (rowWithFields 0x12 (hi8 (clamp t config.trackMin config.trackMax)) (lo8 (clamp t config.trackMin config.trackMax)))
  | .specifyAdvertisement t =>
    some (rowWithFields 0x13 (hi8 (clamp t config.trackMin config.trackMax)) (lo8 (clamp t config.trackMin config.trackMax)))
  | .stopAdvertisement => some (tableBytes 10 0x7EFF0615000000FEE6EF)
  | .stop => some (tableBytes 10 0x7EFF0616000000FEE5EF)
  | .queryVolume => some (tableBytes 10 0x7EFF0601000000FEFAEF)
  | .queryStatus => none
  | .queryEqualizer => none
  | .queryPlaybackMode => none
  | .querySoftwareVersion => none
  | .queryFileCountInFolder => none
  | .queryFolderCount => none
  | .transmit _ => none
  | .send _ => none
  | .rxStart => some (tableBytes 1 0x7E)
  | .rxEnd => some (tableBytes 1 0xEF)
  | .rxData b => some [b]
  | .rxNoData => none
  | .rxReadError => none

/-- The instruction a decoder reads back from the pattern of `i`: operands clamped, Query Volume read as Next, and a
marker given to RX_DATA read as the class its value has. An instruction without a pattern stands for itself. -/
def Instr.canonical : Instr → Instr
  | .next => .next
  | .previous => .previous
  | .specifyTrack t => .specifyTrack t
  | .increaseVolume => .increaseVolume
  | .decreaseVolume => .decreaseVolume
  | .specifyVolume v => .specifyVolume (clamp v config.volumeMin config.volumeMax)
  | .specifyEqualizer e => .specifyEqualizer e
  | .specifyPlaybackMode m => .specifyPlaybackMode m
  | .standby => .standby
  | .normalWorking => .normalWorking
  | .resetModule => .resetModule
  | .playback => .playback
  | .pause => .pause
  | .specifyFolder f k => .specifyFolder (clamp f config.folderMin config.folderMax) k
  | .specifyMp3Track t => .specifyMp3Track (clamp t config.trackMin config.trackMax)
  | .specifyAdvertisement t => .specifyAdvertisement (clamp t config.trackMin config.trackMax)
  | .stopAdvertisement => .stopAdvertisement
  | .stop => .stop
  | .queryVolume => .next
  | .queryStatus => .queryStatus
  | .queryEqualizer => .queryEqualizer
  | .queryPlaybackMode => .queryPlaybackMode
  | .querySoftwareVersion => .querySoftwareVersion
  | .queryFileCountInFolder => .queryFileCountInFolder
  | .queryFolderCount => .queryFolderCount
  | .transmit F => .transmit F
  | .send m => .send m
  | .rxStart => .rxStart
  | .rxEnd => .rxEnd
  | .rxData b => decodeRxByte b
  | .rxNoData => .rxNoData
  | .rxReadError => .rxReadError

/-! ### The table's numbers -/

/-- The bytes of a pattern of `nbits` bits given as the number `w`: the table reads a frame as ONE 80-bit number whose bit 0
is the least significant bit of `F[9]` (R9, R81), and the hardware lays it out `F[0]` first. -/
def patternBytes (nbits w : Nat) : List Byte := tableBytes ((nbits + 7) / 8) w

/-- The instruction the decoder reads from a pattern numbered as the table numbers it. -/
def decodeTableWord (nbits w : Nat) : Option Instr := (decode (patternBytes nbits w)).toOption

end Sys2Proof
end

