-- ==== Sys2Proof/Machine/State.lean ====
section
/-! DEFINITION. The state of the block as plain data, the inputs the outside world gives it, the results its operations
return, the reasons a step can stop, and the state after reset (spec/10_state.md R20 to R35). -/

namespace Sys2Proof.Machine

/-! ### What the transport answers (R28, R29) -/

/-- The answer to one `TransportWrite` (R28). -/
inductive WriteAnswer where
  /-- The transport has taken the byte; it cannot be recalled. -/
  | accepted
  /-- The transport cannot accept the byte; it has not been sent. -/
  | rejected
  deriving DecidableEq, Repr

/-- The answer to one `TransportRead` (R29). -/
inductive ReadAnswer where
  | byte (b : Byte)
  | noData
  | readError
  deriving DecidableEq, Repr

/-! ### What the caller asks (R19, R316) -/

/-- A command or query as it stands at the command port: typed, or with its enumeration operand as a raw byte still to be
converted (R130, R279). -/
inductive PortMessage where
  | typed (m : Message)
  | equalizerByte (b : Byte)
  | playbackModeByte (b : Byte)
  deriving DecidableEq, Repr

/-- One interaction of the caller with the block, a row of the host table R316. -/
inductive Call where
  /-- `encode(v)`. -/
  | encode (v : PortMessage)
  /-- `transmit(F)`, any ten bytes. -/
  | transmit (F : Frame)
  /-- `send(v)`. -/
  | send (v : PortMessage)
  /-- `rx_step()`. -/
  | rxStep
  /-- An enumeration conversion of one byte. -/
  | convert (k : EnumKind) (b : Byte)
  /-- Creation of the instance, to which asserting a hardware reset is equivalent (R311). -/
  | create
  /-- An operation named by the bit pattern that spec/opcode_table.json gives it. The MODEL's own port, not the spec's
  (notes/assumptions/4.md). -/
  | pattern (bytes : List Byte)
  deriving DecidableEq, Repr

/-! ### What an operation returns (R270) -/

/-- The closed set of outcomes of R270, and the member a conversion that succeeds hands over (R316). -/
inductive Result where
  | frame (F : Frame)
  | notSupported
  | ok
  | writeFailure
  | complete (F : Frame)
  | incomplete
  | overrun
  | noData
  | readFailure
  | converted (m : Member)
  | conversionFailure
  deriving DecidableEq, Repr

/-! ### The state -/

/-- The state. `buf` to `txActive` are the block's registers (R20); `calls`, `writeAnswers` and `readAnswers` are the inputs
of a run, the caller's requests and the transport's answers; `writes`, `consumed` and `outcomes` are the observable record of
a run (R331), which no step reads. -/
structure State where
  /-- The reassembler's ten registers (R21). -/
  buf : Frame
  /-- The count of bytes committed to `buf`, 0..10 (R22). -/
  cursor : Fin 11
  /-- The frame being transmitted (R24). -/
  txframe : Frame
  /-- How many bytes of `txframe` the transport has accepted, 0..10 (R25). -/
  txidx : Fin 11
  /-- A `transmit` has started and has not ended: `txframe` and `txidx` are live (R20, R212). -/
  txActive : Bool
  /-- The caller's requests that have not been accepted yet, the next one first. -/
  calls : List Call
  /-- How the transport answers the writes to come, the next one first. `none`: it lets one turn of the machine pass before
  it answers. The empty list: it never answers again (R28, R212). -/
  writeAnswers : List (Option WriteAnswer)
  /-- How the transport answers the reads to come, the next one first. The empty list: it has no byte (R29). -/
  readAnswers : List ReadAnswer
  /-- Every write the transport has answered, with its byte, the oldest first. -/
  writes : List (Byte × WriteAnswer)
  /-- Every byte taken from the transport, the oldest first. -/
  consumed : List Byte
  /-- Every outcome returned to the caller, the oldest first. -/
  outcomes : List Result
  deriving DecidableEq, Repr

/-- The bytes the transport has accepted, in order: the wire. -/
def State.accepted (s : State) : List Byte :=
  (s.writes.filter fun w => w.2 == .accepted).map Prod.fst

/-! ### Why a step can stop -/

/-- The block has no fault: it has no trap mechanism, and every condition it detects is an outcome returned to the caller
(R276, R284). No constructor, so no step can end in a fault. -/
inductive Fault : Type
  deriving DecidableEq, Repr

/-- The named refusals. -/
inductive Refusal where
  /-- Raised by an arm of `exec` whose instruction has no meaning yet. Safe: nothing is claimed of it. -/
  | notModelled (mnemonic : String)
  /-- Raised by the meaning of a transmitter operation (`encode`, `transmit`, `send`) invoked while a `transmit` is in
  progress: two operations of the same agent overlap, and "A model must not give such an execution a meaning: it refuses it"
  (R62, U4). `step` never invokes one then (R215). Safe: the machine stops where the spec gives no behaviour. -/
  | overlappingOperation
  /-- Raised by `step` when the caller names an operation by a bit pattern that is no row's. Safe: nothing runs. -/
  | undecodablePattern (reason : DecodeError)
  deriving DecidableEq, Repr

/-! ### Reset (R33, R310) -/

/-- The state right after creation. `cursor` and `buf` are R33's; `txframe` and `txidx`, which R33 leaves unspecified and not
live, are zero (notes/assumptions/3.md); no caller, no transport answer and no record yet. -/
def State.reset : State where
  buf := Vector.replicate 10 config.bufClear
  cursor := 0
  txframe := Vector.replicate 10 0x00
  txidx := 0
  txActive := false
  calls := []
  writeAnswers := []
  readAnswers := []
  writes := []
  consumed := []
  outcomes := []

end Sys2Proof.Machine
end

