-- ==== Sys2Proof/Machine/Flags.lean ====
section
/-! DEFINITION. The block has no flag, no condition code and no status register (spec/10_state.md R30); what stands in their
place is computed here from state and results: the named states of the reassembler (R23) and the suggested numeric codes of
the outcomes (spec/60_exceptions.md R271). No meaning reads either. -/

namespace Sys2Proof.Machine

/-- The names of the reassembler's states (R23). -/
inductive RxPhase where
  | idle | accumulating | full
  deriving DecidableEq, Repr

/-- The named state, a function of `cursor` alone (R23). -/
def State.rxPhase (s : State) : RxPhase :=
  if s.cursor.val = 0 then .idle else if s.cursor.val < 10 then .accumulating else .full

/-- The receive side's suggested status code (R271). -/
def Result.rxCode : Result → Option (BitVec 3)
  | .incomplete => some 0
  | .complete _ => some 1
  | .overrun => some 2
  | .noData => some 3
  | .readFailure => some 4
  | .frame _ | .notSupported | .ok | .writeFailure | .converted _ | .conversionFailure => none

/-- The transmit side's suggested status code (R271). -/
def Result.txCode : Result → Option (BitVec 2)
  | .ok => some 0
  | .writeFailure => some 1
  | .notSupported => some 2
  | .frame _ | .complete _ | .incomplete | .overrun | .noData | .readFailure | .converted _ | .conversionFailure => none

end Sys2Proof.Machine
end

