-- ==== Sys2Proof/Machine/Ops.lean ====
section
/-! DEFINITION. The named operations over the registers and the transport that the meanings share. The block has no memory
behind it and no trap mechanism; returning an outcome to the caller (spec/60_exceptions.md R276) is what stands in the place
of taking an exception, and it is the one operation `State.report`. -/

namespace Sys2Proof.Machine

/-! ### Plain updates -/

/-- Return an outcome to the immediate caller; nothing is saved and no mode changes (R276). -/
def State.report (s : State) (r : Result) : State := { s with outcomes := s.outcomes ++ [r] }

/-- Take byte `b` from the transport: it will not be returned again (R57). -/
def State.consume (s : State) (b : Byte) : State := { s with consumed := s.consumed ++ [b] }

/-- Write the reassembler's registers. -/
def State.setRx (s : State) (buf : Frame) (cursor : Fin 11) : State := { s with buf := buf, cursor := cursor }

/-- Write the transmitter's registers. -/
def State.setTx (s : State) (frame : Frame) (idx : Fin 11) (active : Bool) : State :=
  { s with txframe := frame, txidx := idx, txActive := active }

/-- Record the transport's answer to the write of byte `b`. -/
def State.logWrite (s : State) (b : Byte) (a : WriteAnswer) : State := { s with writes := s.writes ++ [(b, a)] }

/-- Replace the answers the transport has still to give to writes. -/
def State.setWriteAnswers (s : State) (as : List (Option WriteAnswer)) : State := { s with writeAnswers := as }

/-- Replace the answers the transport has still to give to reads. -/
def State.setReadAnswers (s : State) (rs : List ReadAnswer) : State := { s with readAnswers := rs }

/-- Replace the caller's requests that are not accepted yet. -/
def State.setCalls (s : State) (cs : List Call) : State := { s with calls := cs }

/-! ### Creation -/

/-- Create the instance anew: the block's registers take their reset values; the caller, the transport and the record of
the run are outside the block (R33, R311). -/
def State.create (s : State) : State :=
  (s.setRx State.reset.buf State.reset.cursor).setTx State.reset.txframe State.reset.txidx State.reset.txActive

/-! ### Encoding (R150, R190) -/

/-- `build_frame(id, p5, p6)`, the five steps of R150: static bytes, identifier, feedback flag, parameter bytes, and the
checksum written big-endian into offsets 7 and 8. -/
def buildFrame (id : Byte) (p : ParamForm) : Frame :=
  let F : Frame := #v[config.startMarker, config.version, config.length, id, config.feedbackNone, p.first, p.second,
    0x00, 0x00, config.endMarker]
  (F.set 7 (hi8 (cksum F))).set 8 (lo8 (cksum F))

/-- `encode(c) = build_frame(id(c), p5(c), p6(c))`: total on Command (R150, R170). -/
def encodeCommand (c : Command) : Frame := buildFrame c.id c.params

/-- `encode(q)`: a frame for a query with an identifier, `NotSupported` (none) otherwise (R190). -/
def encodeQuery (q : Query) : Option Frame := q.id.map fun id => buildFrame id .p0

/-- `encode(v)` for a Command or a Query; none is `NotSupported`. -/
def encodeMessage : Message → Option Frame
  | .command c => some (encodeCommand c)
  | .query q => encodeQuery q

/-- Run an operation of the transmitter. Two operations of that agent may not overlap: a model refuses the second one while a
`transmit` is in progress (R62). -/
def onTransmitter (s : State) (k : State → State) : Host.Outcome State Fault Refusal :=
  if s.txActive then .refused .overlappingOperation else .next (k s)

/-- The operation `encode(v)`: it reads and writes no register and returns the frame or `NotSupported` (R150, R190). -/
def encodeOp (v : Message) (s : State) : Host.Outcome State Fault Refusal :=
  onTransmitter s fun s =>
    match encodeMessage v with
    | some F => s.report (.frame F)
    | none => s.report .notSupported

/-! ### Transmitting (R210) -/

/-- The loop of R210 from its test `txidx < 10` on, run on the answers the transport has ready: it ends with `Ok`, ends with
`WriteFailure` at the first rejected byte, or stays in `TransportWrite` where the next answer is not ready or never comes
(R212). -/
def txLoop : List (Option WriteAnswer) → State → State
  | as, s =>
    if h : s.txidx.val < 10 then
      match as with
      | some .accepted :: rest =>
        txLoop rest ((s.logWrite s.txframe[s.txidx.val] .accepted).setTx s.txframe ⟨s.txidx.val + 1, by omega⟩ s.txActive)
      | some .rejected :: rest =>
        (((s.logWrite s.txframe[s.txidx.val] .rejected).setTx s.txframe s.txidx false).setWriteAnswers rest).report
          .writeFailure
      | none :: rest => s.setWriteAnswers (none :: rest)
      | [] => s.setWriteAnswers []
    else ((s.setTx s.txframe s.txidx false).setWriteAnswers as).report .ok

/-- Go on with the `transmit` in progress: no byte is offered again (R211, R213). -/
def txRun (s : State) : State := txLoop s.writeAnswers s

/-- `transmit(F)`: load `txframe`, set `txidx` to 0, run the loop. The ten bytes are not inspected (R210). -/
def transmitOp (F : Frame) (s : State) : State := txRun (s.setTx F 0 true)

/-- `send(v) = transmit(encode(v))`; `NotSupported` is decided before any write (R214). -/
def sendOp (v : Message) (s : State) : State :=
  match encodeMessage v with
  | some F => transmitOp F s
  | none => s.report .notSupported

/-! ### Receiving (R230) -/

/-- A start marker: clear the buffer, store the marker at index 0, `cursor` 1 (R234). -/
def rxStartOp (s : State) : State :=
  ((s.consume config.startMarker).setRx ((Vector.replicate 10 config.bufClear).set 0 config.startMarker) 1).report
    .incomplete

/-- An end marker: with room, store it and hand over a copy of the whole buffer (R235); without, `Overrun` (R236). -/
def rxEndOp (s : State) : State :=
  let s := s.consume config.endMarker
  if h : s.cursor.val < 10 then
    let buf := s.buf.set s.cursor.val config.endMarker
    (s.setRx buf ⟨s.cursor.val + 1, by omega⟩).report (.complete buf)
  else s.report .overrun

/-- A byte of the class DATA: with room, store it (R237); without, drop it (R238). -/
def rxDataOp (b : Byte) (s : State) : State :=
  let s := s.consume b
  if h : s.cursor.val < 10 then
    (s.setRx (s.buf.set s.cursor.val b) ⟨s.cursor.val + 1, by omega⟩).report .incomplete
  else s.report .incomplete

end Sys2Proof.Machine
end

