-- ==== Sys2Proof/Machine/Commands.lean ====
section
/-! DEFINITION. The meanings of the 18 command rows: `encode` of a Command (spec/41_encoder_commands.md R152 to R169). -/

namespace Sys2Proof.Machine

/-- `encode(Next)` (R152). -/
def execNext (s : State) : Host.Outcome State Fault Refusal := encodeOp (.command .next) s

/-- `encode(Previous)` (R153). -/
def execPrevious (s : State) : Host.Outcome State Fault Refusal := encodeOp (.command .previous) s

/-- `encode(SpecifyTrack)` (R154). The track is not clamped. -/
def execSpecifyTrack (track : Half) (s : State) : Host.Outcome State Fault Refusal := encodeOp (.command (.specifyTrack track)) s

/-- `encode(IncreaseVolume)` (R155). The block keeps no record of the volume. -/
def execIncreaseVolume (s : State) : Host.Outcome State Fault Refusal := encodeOp (.command .increaseVolume) s

/-- `encode(DecreaseVolume)` (R156). The block keeps no record of the volume. -/
def execDecreaseVolume (s : State) : Host.Outcome State Fault Refusal := encodeOp (.command .decreaseVolume) s

/-- `encode(SpecifyVolume)` (R157). The volume is clamped to 0..30. -/
def execSpecifyVolume (volume : Byte) (s : State) : Host.Outcome State Fault Refusal := encodeOp (.command (.specifyVolume volume)) s

/-- `encode(SpecifyEqualizer)` (R158). -/
def execSpecifyEqualizer (eq : Equalizer) (s : State) : Host.Outcome State Fault Refusal := encodeOp (.command (.specifyEqualizer eq)) s

/-- `encode(SpecifyPlaybackMode)` (R159). -/
def execSpecifyPlaybackMode (mode : PlaybackMode) (s : State) : Host.Outcome State Fault Refusal := encodeOp (.command (.specifyPlaybackMode mode)) s

/-- `encode(Standby)` (R160). It puts nothing of this block into a low-power state. -/
def execStandby (s : State) : Host.Outcome State Fault Refusal := encodeOp (.command .standby) s

/-- `encode(NormalWorking)` (R161). -/
def execNormalWorking (s : State) : Host.Outcome State Fault Refusal := encodeOp (.command .normalWorking) s

/-- `encode(ResetModule)` (R162). It is a frame for the peripheral and resets nothing of this block (R312). -/
def execResetModule (s : State) : Host.Outcome State Fault Refusal := encodeOp (.command .resetModule) s

/-- `encode(Playback)` (R163). -/
def execPlayback (s : State) : Host.Outcome State Fault Refusal := encodeOp (.command .playback) s

/-- `encode(Pause)` (R164). -/
def execPause (s : State) : Host.Outcome State Fault Refusal := encodeOp (.command .pause) s

/-- `encode(SpecifyFolder)` (R165). The folder is clamped to 0..99, the sub-track is not clamped. -/
def execSpecifyFolder (folder : Byte) (subtrack : Byte) (s : State) : Host.Outcome State Fault Refusal := encodeOp (.command (.specifyFolder folder subtrack)) s

/-- `encode(SpecifyMp3Track)` (R166). The track is clamped to 0..9999. -/
def execSpecifyMp3Track (track : Half) (s : State) : Host.Outcome State Fault Refusal := encodeOp (.command (.specifyMp3Track track)) s

/-- `encode(SpecifyAdvertisement)` (R167). The track is clamped to 0..9999. -/
def execSpecifyAdvertisement (track : Half) (s : State) : Host.Outcome State Fault Refusal := encodeOp (.command (.specifyAdvertisement track)) s

/-- `encode(StopAdvertisement)` (R168). -/
def execStopAdvertisement (s : State) : Host.Outcome State Fault Refusal := encodeOp (.command .stopAdvertisement) s

/-- `encode(Stop)` (R169). -/
def execStop (s : State) : Host.Outcome State Fault Refusal := encodeOp (.command .stop) s

end Sys2Proof.Machine
end

