-- ==== Sys2Proof/Machine/Queries.lean ====
section
/-! DEFINITION. The meanings of the 7 query rows: `encode` of a Query (spec/42_encoder_queries.md R190 to R197). -/

namespace Sys2Proof.Machine

/-- `encode(Query.Volume)`: the frame of Next, byte for byte (R192). -/
def execQueryVolume (s : State) : Host.Outcome State Fault Refusal := encodeOp (.query .volume) s

/-- `encode(Query.Status)`: always `NotSupported` (R191). -/
def execQueryStatus (s : State) : Host.Outcome State Fault Refusal := encodeOp (.query .status) s

/-- `encode(Query.Equalizer)`: always `NotSupported` (R193). -/
def execQueryEqualizer (s : State) : Host.Outcome State Fault Refusal := encodeOp (.query .equalizer) s

/-- `encode(Query.PlaybackMode)`: always `NotSupported` (R194). -/
def execQueryPlaybackMode (s : State) : Host.Outcome State Fault Refusal := encodeOp (.query .playbackMode) s

/-- `encode(Query.SoftwareVersion)`: always `NotSupported` (R195). -/
def execQuerySoftwareVersion (s : State) : Host.Outcome State Fault Refusal := encodeOp (.query .softwareVersion) s

/-- `encode(Query.FileCountInFolder)`: always `NotSupported` (R196). -/
def execQueryFileCountInFolder (s : State) : Host.Outcome State Fault Refusal := encodeOp (.query .fileCountInFolder) s

/-- `encode(Query.FolderCount)`: always `NotSupported` (R197). -/
def execQueryFolderCount (s : State) : Host.Outcome State Fault Refusal := encodeOp (.query .folderCount) s

end Sys2Proof.Machine
end

