-- ==== Sys2Proof/Machine/Reassembler.lean ====
section
/-! DEFINITION. The meanings of the `rx_step` rows, one per transport answer (spec/44_reassembler.md R232 to R238). They read
and write nothing of the transmitter, so they run while a `transmit` is in progress too (spec/00_scope.md R12). -/

namespace Sys2Proof.Machine

/-- `rx_step <- Byte(0x7E)` (R234). -/
def execRxStart (s : State) : Host.Outcome State Fault Refusal := .next (rxStartOp s)

/-- `rx_step <- Byte(0xEF)` (R235, R236). -/
def execRxEnd (s : State) : Host.Outcome State Fault Refusal := .next (rxEndOp s)

/-- `rx_step <- Byte(b)`, `b` not a marker (R237, R238). A byte is classified by its value alone (R98), so a marker given here
acts as the marker it is (notes/assumptions/6.md). -/
def execRxData (b : Byte) (s : State) : Host.Outcome State Fault Refusal :=
  if b = config.startMarker then .next (rxStartOp s)
  else if b = config.endMarker then .next (rxEndOp s)
  else .next (rxDataOp b s)

/-- `rx_step <- NoData`: the state is unchanged (R232). -/
def execRxNoData (s : State) : Host.Outcome State Fault Refusal := .next (s.report .noData)

/-- `rx_step <- ReadError`: the state is unchanged and the error is not remembered (R233). -/
def execRxReadError (s : State) : Host.Outcome State Fault Refusal := .next (s.report .readFailure)

end Sys2Proof.Machine
end

