-- ==== Sys2Proof/Machine/Transmit.lean ====
section
/-! DEFINITION. The meanings of TRANSMIT and SEND (spec/43_transmit.md R210, R214). -/

namespace Sys2Proof.Machine

/-- `transmit(F)` (R210). -/
def execTransmit (F : Frame) (s : State) : Host.Outcome State Fault Refusal := onTransmitter s (transmitOp F)

/-- `send(v)` (R214). -/
def execSend (v : Message) (s : State) : Host.Outcome State Fault Refusal := onTransmitter s (sendOp v)

end Sys2Proof.Machine
end

