-- ==== Sys2Proof/Machine/Dispatch.lean ====
section
/-! DEFINITION. `exec`: the meaning of each instruction, one arm per constructor. -/

namespace Sys2Proof.Machine

def exec (i : Instr) (s : State) : Host.Outcome State Fault Refusal :=
  match i with
  | .next => Sys2Proof.Machine.execNext s
  | .previous => Sys2Proof.Machine.execPrevious s
  | .specifyTrack track => Sys2Proof.Machine.execSpecifyTrack track s
  | .increaseVolume => Sys2Proof.Machine.execIncreaseVolume s
  | .decreaseVolume => Sys2Proof.Machine.execDecreaseVolume s
  | .specifyVolume volume => Sys2Proof.Machine.execSpecifyVolume volume s
  | .specifyEqualizer eq => Sys2Proof.Machine.execSpecifyEqualizer eq s
  | .specifyPlaybackMode mode => Sys2Proof.Machine.execSpecifyPlaybackMode mode s
  | .standby => Sys2Proof.Machine.execStandby s
  | .normalWorking => Sys2Proof.Machine.execNormalWorking s
  | .resetModule => Sys2Proof.Machine.execResetModule s
  | .playback => Sys2Proof.Machine.execPlayback s
  | .pause => Sys2Proof.Machine.execPause s
  | .specifyFolder folder subtrack => Sys2Proof.Machine.execSpecifyFolder folder subtrack s
  | .specifyMp3Track track => Sys2Proof.Machine.execSpecifyMp3Track track s
  | .specifyAdvertisement track => Sys2Proof.Machine.execSpecifyAdvertisement track s
  | .stopAdvertisement => Sys2Proof.Machine.execStopAdvertisement s
  | .stop => Sys2Proof.Machine.execStop s
  | .queryVolume => Sys2Proof.Machine.execQueryVolume s
  | .queryStatus => Sys2Proof.Machine.execQueryStatus s
  | .queryEqualizer => Sys2Proof.Machine.execQueryEqualizer s
  | .queryPlaybackMode => Sys2Proof.Machine.execQueryPlaybackMode s
  | .querySoftwareVersion => Sys2Proof.Machine.execQuerySoftwareVersion s
  | .queryFileCountInFolder => Sys2Proof.Machine.execQueryFileCountInFolder s
  | .queryFolderCount => Sys2Proof.Machine.execQueryFolderCount s
  | .transmit frame => Sys2Proof.Machine.execTransmit frame s
  | .send message => Sys2Proof.Machine.execSend message s
  | .rxStart => Sys2Proof.Machine.execRxStart s
  | .rxEnd => Sys2Proof.Machine.execRxEnd s
  | .rxData byte => Sys2Proof.Machine.execRxData byte s
  | .rxNoData => Sys2Proof.Machine.execRxNoData s
  | .rxReadError => Sys2Proof.Machine.execRxReadError s

end Sys2Proof.Machine
end

