-- ==== Sys2Proof/Machine/Fetch.lean ====
section
/-! DEFINITION. What the machine does next. The block fetches no instruction (spec/00_scope.md R2): its next operation is the
one the caller invokes (R19), and the operation of an `rx_step` is decoded from the byte the transport hands over (R98). A
`transmit` in progress goes on as soon as the transport has answered, and until then only the reassembler and the caller's
own interactions have a turn (R12, R212, R215). -/

namespace Sys2Proof.Machine

/-- The two agents of R12. -/
inductive Agent where
  | transmitter | reassembler
  deriving DecidableEq, Repr

/-- The agent that runs a request; a conversion and a creation belong to neither (R12, R316). -/
def Call.agent : Call → Option Agent
  | .encode _ => some .transmitter
  | .transmit _ => some .transmitter
  | .send _ => some .transmitter
  | .rxStep => some .reassembler
  | .convert _ _ => none
  | .create => none
  | .pattern bytes => if bytes.length = 1 then some .reassembler else some .transmitter

/-- The Command or Query at the command port; none where the raw enumeration byte does not convert, so that no Command
exists (R130, R279). -/
def PortMessage.resolve : PortMessage → Option Message
  | .typed m => some m
  | .equalizerByte b => (Equalizer.ofByte b).map fun e => .command (.specifyEqualizer e)
  | .playbackModeByte b => (PlaybackMode.ofByte b).map fun m => .command (.specifyPlaybackMode m)

/-- One `TransportRead()`: the next answer, and the state with that answer given. With none queued the transport has no
byte (R29, R231). -/
def transportRead (s : State) : ReadAnswer × State :=
  match s.readAnswers with
  | a :: rest => (a, s.setReadAnswers rest)
  | [] => (.noData, s)

/-- The table row of `rx_step` with this answer of the transport (R98, R232, R233). -/
def ReadAnswer.instr : ReadAnswer → Instr
  | .byte b => decodeRxByte b
  | .noData => .rxNoData
  | .readError => .rxReadError

/-- What the machine does next. -/
inductive Move where
  /-- Let a turn pass: the caller asks nothing, or asks an operation of the transmitter while a `transmit` waits. -/
  | wait (s : State)
  /-- Go on with the `transmit` in progress. -/
  | resume
  /-- Run an instruction, in the state with its request and its transport answer taken. -/
  | run (i : Instr) (s : State)
  /-- A conversion or a creation, done: its next state. -/
  | done (s : State)
  /-- The caller named an operation by a pattern of no row. -/
  | undecodable (reason : DecodeError)
  deriving DecidableEq, Repr

/-- Run the Command or Query at the port as `mk` says, or report that it does not exist (R279). -/
def PortMessage.run (v : PortMessage) (mk : Message → Instr) (s : State) : Move :=
  match v.resolve with
  | some m => .run (mk m) s
  | none => .done (s.report .conversionFailure)

/-- Accept request `c`; `s` has it taken from the caller. -/
def acceptCall (c : Call) (s : State) : Move :=
  match c with
  | .encode v => v.run Message.instr s
  | .transmit F => .run (.transmit F) s
  | .send v => v.run Instr.send s
  | .rxStep => .run (transportRead s).1.instr (transportRead s).2
  | .convert k b =>
    match k.convert b with
    | some m => .done (s.report (.converted m))
    | none => .done (s.report .conversionFailure)
  | .create => .done s.create
  | .pattern bytes =>
    match decode bytes with
    | .ok i => .run i s
    | .error e => .undecodable e

/-- The caller's next request, where there is one. -/
def nextCall (s : State) : Move :=
  match s.calls with
  | [] => .wait s
  | c :: rest => acceptCall c (s.setCalls rest)

/-- A turn while the transport has not answered the write of the `transmit` in progress: an operation of the transmitter is
not accepted (R215), anything else runs. -/
def turnWhileWaiting (s : State) : Move :=
  match s.calls with
  | [] => .wait s
  | c :: rest => if c.agent = some .transmitter then .wait s else acceptCall c (s.setCalls rest)

/-- What the machine does next. -/
def nextMove (s : State) : Move :=
  if s.txActive then
    match s.writeAnswers with
    | some _ :: _ => .resume
    | none :: rest => turnWhileWaiting (s.setWriteAnswers rest)
    | [] => turnWhileWaiting s
  else nextCall s

/-- Store a pattern where the next step takes its operation from: one byte is a received byte, which an `rx_step` is invoked
to read; anything else stands as a request that names its operation by the pattern. No `transmit` is left in progress. -/
def placePattern (s : State) (bytes : List Byte) : State :=
  match bytes with
  | [b] =>
    ((s.setTx s.txframe s.txidx false).setCalls (.rxStep :: s.calls)).setReadAnswers (.byte b :: s.readAnswers)
  | _ => (s.setTx s.txframe s.txidx false).setCalls (.pattern bytes :: s.calls)

end Sys2Proof.Machine
end

