-- ==== Sys2Proof/Machine/Step.lean ====
section
/-! DEFINITION. One step of the machine. -/

namespace Sys2Proof.Machine

/-- One step: let a turn pass, go on with the `transmit` in progress, or run the operation the caller invokes. -/
def step (s : State) : Host.Outcome State Fault Refusal :=
  match nextMove s with
  | .wait s' => .next s'
  | .resume => .next (txRun s)
  | .run i s' => exec i s'
  | .done s' => .next s'
  | .undecodable e => .refused (.undecodablePattern e)

/-- `s` with the instruction whose pattern has `nbits` bits and is the number `w` placed where `step` takes its next
operation from. -/
def State.withFetchWord (s : State) (nbits w : Nat) : State := placePattern s (patternBytes nbits w)

end Sys2Proof.Machine
end

