-- ==== Sys2Proof/Safety.lean ====
section
/-! DEFINITION. The terms claims are made in: what an operation returns, a run, feeding the reassembler, the frame layout in
plain integers, and the invariants that say a state is sound. -/

namespace Sys2Proof.Machine

/-- `exec i` from `s` completes: it returns `r` to the caller and changes nothing else, no register and no part of the
transport. -/
def Returns (i : Instr) (s : State) (r : Result) : Prop :=
  exec i s = .next { s with outcomes := s.outcomes ++ [r] }

/-- `k` steps of the machine, stopping at the first fault or refusal. -/
def steps : Nat → State → Host.Outcome State Fault Refusal
  | 0, s => .next s
  | k + 1, s =>
    match step s with
    | .next t => steps k t
    | .fault r => .fault r
    | .refused r => .refused r

/-- `s` with a caller who invokes `rx_step` once for each of the transport's answers `as`, and nothing else. -/
def feeding (s : State) (as : List ReadAnswer) : State :=
  { s with calls := List.replicate as.length .rxStep, readAnswers := as }

/-- `s` with a caller who invokes `rx_step` once for each of the bytes, which the transport delivers in order. -/
def feedingBytes (s : State) (bytes : List Byte) : State := feeding s (bytes.map .byte)

/-- The frame of an identifier and two parameter bytes, written out from R81 with the checksum in plain integers,
`0xFEFB - F[3] - F[5] - F[6]` (R93). It shares no definition with the encoder. -/
def wireFrame (id p5 p6 : Byte) : Frame :=
  #v[0x7E, 0xFF, 0x06, id, 0x00, p5, p6,
    BitVec.ofNat 8 ((0xFEFB - id.toNat - p5.toNat - p6.toNat) / 256),
    BitVec.ofNat 8 ((0xFEFB - id.toNat - p5.toNat - p6.toNat) % 256), 0xEF]

/-- Every buffer byte from `cursor` on is BUF_CLEAR (R34). -/
def State.TailClear (s : State) : Prop :=
  ∀ i : Fin 10, s.cursor.val ≤ i.val → s.buf[i] = 0x00

/-- While a `transmit` is in progress at least one byte is left to send, and the last `txidx` writes on record are the bytes
`txframe[0 .. txidx-1]`, in order and accepted (R25, R32). -/
def State.TxSound (s : State) : Prop :=
  s.txActive = true →
    s.txidx.val < 10 ∧ ((s.txframe.toList.take s.txidx.val).map fun b => (b, WriteAnswer.accepted)) <:+ s.writes

/-- `s` without the record of the run: what the machine acts on. -/
def State.unrecorded (s : State) : State := { s with writes := [], consumed := [], outcomes := [] }

/-- A result that hands over a frame from the reassembler. -/
def Result.isComplete : Result → Bool
  | .complete _ => true
  | .frame _ | .notSupported | .ok | .writeFailure | .incomplete | .overrun | .noData | .readFailure | .converted _
  | .conversionFailure => false

/-- How many frames the reassembler has handed over on record. -/
def State.completes (s : State) : Nat := (s.outcomes.filter Result.isComplete).length

/-- An operation of the transmitter (R12): `encode`, `transmit` or `send`. -/
def isTransmitterOp (i : Instr) : Prop :=
  (∃ v : Message, i = v.instr) ∨ (∃ F, i = .transmit F) ∨ (∃ v, i = .send v)

/-- An operation of the reassembler (R12): `rx_step` with an answer of the transport. -/
def isReassemblerOp (i : Instr) : Prop := ∃ a : ReadAnswer, i = a.instr

end Sys2Proof.Machine
end

