-- ==== Sys2Proof/Certificates/Slice0/Obligations.lean ====
section
/-! DEFINITION. The statements for the provers, in the order of OBLIGATIONS.json. Bytes and frames are written out from
spec/, not computed by the model. -/

open Sys2Proof Sys2Proof.Machine

/-! ### Reset and creation -/

/-- R310: `cursor` 0, every buffer byte `0x00`, the transmitter's registers not live, the transport untouched. That the
buffer is clear is the spec's own decision D7; `txActive` is the model's field for R310's "not live"
(notes/assumptions/8.md). -/
def Obligations.ResetLeavesTheBlockIdle : Prop :=
  State.reset.cursor = 0 ∧ (∀ i : Fin 10, State.reset.buf[i] = 0x00) ∧ State.reset.txActive = false ∧
    State.reset.writes = [] ∧ State.reset.consumed = []

/-- R311, R316: creating the instance gives `buf` and `cursor` their reset values, ends no outcome and touches neither the
transport nor the record. The value of `txframe` and `txidx`, which are then not live, is the model's choice
(notes/assumptions/3.md). What a creation does while a `transmit` waits for the transport is the model's choice too
(notes/assumptions/9.md): it has its turn where the transport has not answered, and abandons the `transmit`, which returns no
outcome; where the transport has answered, the `transmit` goes on first and the creation stays with the caller. -/
def Obligations.CreationRestoresTheResetRegisters : Prop :=
  ∀ (s : State) (rest : List Call), s.calls = .create :: rest →
    (s.txActive = false → step s = .next { s with
      buf := State.reset.buf, cursor := 0, txframe := State.reset.txframe, txidx := State.reset.txidx, calls := rest }) ∧
    (s.txActive = true → s.writeAnswers = [] → step s = .next { s with
      buf := State.reset.buf, cursor := 0, txframe := State.reset.txframe, txidx := State.reset.txidx, txActive := false,
      calls := rest }) ∧
    (∀ later, s.txActive = true → s.writeAnswers = none :: later → step s = .next { s with
      buf := State.reset.buf, cursor := 0, txframe := State.reset.txframe, txidx := State.reset.txidx, txActive := false,
      calls := rest, writeAnswers := later }) ∧
    (∀ a later, s.txActive = true → s.writeAnswers = some a :: later →
      step s = .next (txRun s) ∧ (txRun s).calls = s.calls)

/-! ### Commands -/

/-- R153, R155, R156, R160, R161, R163, R164, R168, R169: the nine commands whose frame is a plain constant. -/
def Obligations.PlainCommandsReturnTheirFrames : Prop :=
  ∀ s : State, s.txActive = false →
    Returns .previous s (.frame #v[0x7E, 0xFF, 0x06, 0x02, 0x00, 0x00, 0x00, 0xFE, 0xF9, 0xEF]) ∧
    Returns .increaseVolume s (.frame #v[0x7E, 0xFF, 0x06, 0x04, 0x00, 0x00, 0x00, 0xFE, 0xF7, 0xEF]) ∧
    Returns .decreaseVolume s (.frame #v[0x7E, 0xFF, 0x06, 0x05, 0x00, 0x00, 0x00, 0xFE, 0xF6, 0xEF]) ∧
    Returns .standby s (.frame #v[0x7E, 0xFF, 0x06, 0x0A, 0x00, 0x00, 0x00, 0xFE, 0xF1, 0xEF]) ∧
    Returns .normalWorking s (.frame #v[0x7E, 0xFF, 0x06, 0x0B, 0x00, 0x00, 0x00, 0xFE, 0xF0, 0xEF]) ∧
    Returns .playback s (.frame #v[0x7E, 0xFF, 0x06, 0x0D, 0x00, 0x00, 0x00, 0xFE, 0xEE, 0xEF]) ∧
    Returns .pause s (.frame #v[0x7E, 0xFF, 0x06, 0x0E, 0x00, 0x00, 0x00, 0xFE, 0xED, 0xEF]) ∧
    Returns .stopAdvertisement s (.frame #v[0x7E, 0xFF, 0x06, 0x15, 0x00, 0x00, 0x00, 0xFE, 0xE6, 0xEF]) ∧
    Returns .stop s (.frame #v[0x7E, 0xFF, 0x06, 0x16, 0x00, 0x00, 0x00, 0xFE, 0xE5, 0xEF])

/-- R152: Next returns its frame, and it is the frame of Query.Volume. -/
def Obligations.NextAndQueryVolumeShareOneFrame : Prop :=
  ∀ s : State, s.txActive = false →
    Returns .next s (.frame #v[0x7E, 0xFF, 0x06, 0x01, 0x00, 0x00, 0x00, 0xFE, 0xFA, 0xEF]) ∧
    Returns .queryVolume s (.frame #v[0x7E, 0xFF, 0x06, 0x01, 0x00, 0x00, 0x00, 0xFE, 0xFA, 0xEF])

/-- R162: ResetModule returns its frame and changes no register; a reassembler fed that frame, whatever its registers hold,
reports Complete at the ninth and at the tenth byte. The eight outcomes before and the frame of the first Complete, with
`0x00` at offset 9, are the spec's own inference in R246 and rest on its decisions D23 and D6 (notes/assumptions/2.md). -/
def Obligations.ResetModuleIsAFrameThatCompletesTwice : Prop :=
  ∀ s : State, s.txActive = false →
    Returns .resetModule s (.frame #v[0x7E, 0xFF, 0x06, 0x0C, 0x00, 0x00, 0x00, 0xFE, 0xEF, 0xEF]) ∧
    ∃ t, steps 10 (feedingBytes s [0x7E, 0xFF, 0x06, 0x0C, 0x00, 0x00, 0x00, 0xFE, 0xEF, 0xEF]) = .next t ∧
      t.outcomes = s.outcomes ++ List.replicate 8 .incomplete ++
        [.complete #v[0x7E, 0xFF, 0x06, 0x0C, 0x00, 0x00, 0x00, 0xFE, 0xEF, 0x00],
          .complete #v[0x7E, 0xFF, 0x06, 0x0C, 0x00, 0x00, 0x00, 0xFE, 0xEF, 0xEF]]

/-- R154: SpecifyTrack sends all sixteen bits of its operand, high byte first; no command's checksum is smaller than that
of SpecifyTrack(65535); the tracks 126, 239 and 122 put a marker value inside the frame. That this operand is not clamped
is the spec's own decision D3. -/
def Obligations.SpecifyTrackIsNotClamped : Prop :=
  ∀ s : State, s.txActive = false →
    (∀ t : Half, Returns (.specifyTrack t) s
      (.frame (wireFrame 0x03 (BitVec.ofNat 8 (t.toNat / 256)) (BitVec.ofNat 8 (t.toNat % 256))))) ∧
    Returns (.specifyTrack 65535) s (.frame #v[0x7E, 0xFF, 0x06, 0x03, 0x00, 0xFF, 0xFF, 0xFC, 0xFA, 0xEF]) ∧
    (∀ c : Command, ∃ F : Frame, Returns c.instr s (.frame F) ∧ 0xFCFA ≤ 256 * F[7].toNat + F[8].toNat) ∧
    Returns (.specifyTrack 126) s (.frame #v[0x7E, 0xFF, 0x06, 0x03, 0x00, 0x00, 0x7E, 0xFE, 0x7A, 0xEF]) ∧
    Returns (.specifyTrack 239) s (.frame #v[0x7E, 0xFF, 0x06, 0x03, 0x00, 0x00, 0xEF, 0xFE, 0x09, 0xEF]) ∧
    Returns (.specifyTrack 122) s (.frame #v[0x7E, 0xFF, 0x06, 0x03, 0x00, 0x00, 0x7A, 0xFE, 0x7E, 0xEF])

/-- R157: the volume is clamped to 0..30 and stands at offset 6; the checksum is that of the clamped byte. The offset is
the spec's own decision D2. -/
def Obligations.SpecifyVolumeClampsToThirty : Prop :=
  ∀ (s : State) (v : Byte), s.txActive = false →
    Returns (.specifyVolume v) s (.frame (wireFrame 0x06 0x00 (BitVec.ofNat 8 (min v.toNat 30))))

/-- R158, R159: the frame of every equalizer setting and of every playback mode. The offset of the code and the codes of
the sets are the spec's own decisions D2 and D20. -/
def Obligations.EnumerationCommandsReturnTheirFrames : Prop :=
  ∀ s : State, s.txActive = false →
    Returns (.specifyEqualizer .normal) s (.frame #v[0x7E, 0xFF, 0x06, 0x07, 0x00, 0x00, 0x00, 0xFE, 0xF4, 0xEF]) ∧
    Returns (.specifyEqualizer .pop) s (.frame #v[0x7E, 0xFF, 0x06, 0x07, 0x00, 0x00, 0x01, 0xFE, 0xF3, 0xEF]) ∧
    Returns (.specifyEqualizer .rock) s (.frame #v[0x7E, 0xFF, 0x06, 0x07, 0x00, 0x00, 0x02, 0xFE, 0xF2, 0xEF]) ∧
    Returns (.specifyEqualizer .jazz) s (.frame #v[0x7E, 0xFF, 0x06, 0x07, 0x00, 0x00, 0x03, 0xFE, 0xF1, 0xEF]) ∧
    Returns (.specifyEqualizer .classic) s (.frame #v[0x7E, 0xFF, 0x06, 0x07, 0x00, 0x00, 0x04, 0xFE, 0xF0, 0xEF]) ∧
    Returns (.specifyEqualizer .bass) s (.frame #v[0x7E, 0xFF, 0x06, 0x07, 0x00, 0x00, 0x05, 0xFE, 0xEF, 0xEF]) ∧
    Returns (.specifyPlaybackMode .repeatAll) s (.frame #v[0x7E, 0xFF, 0x06, 0x08, 0x00, 0x00, 0x00, 0xFE, 0xF3, 0xEF]) ∧
    Returns (.specifyPlaybackMode .folderRepeat) s
      (.frame #v[0x7E, 0xFF, 0x06, 0x08, 0x00, 0x00, 0x01, 0xFE, 0xF2, 0xEF]) ∧
    Returns (.specifyPlaybackMode .singleRepeat) s
      (.frame #v[0x7E, 0xFF, 0x06, 0x08, 0x00, 0x00, 0x02, 0xFE, 0xF1, 0xEF]) ∧
    Returns (.specifyPlaybackMode .random) s (.frame #v[0x7E, 0xFF, 0x06, 0x08, 0x00, 0x00, 0x03, 0xFE, 0xF0, 0xEF])

/-- R165: the folder is clamped to 0..99 and stands first, the sub-track is sent as given. That the sub-track is not
clamped is the spec's own decision D4. -/
def Obligations.SpecifyFolderClampsTheFolderOnly : Prop :=
  ∀ (s : State) (f k : Byte), s.txActive = false →
    Returns (.specifyFolder f k) s (.frame (wireFrame 0x0F (BitVec.ofNat 8 (min f.toNat 99)) k))

/-- R166, R167: the track is clamped to 0..9999 and sent high byte first. -/
def Obligations.Mp3AndAdvertisementTracksClampTo9999 : Prop :=
  ∀ (s : State) (t : Half), s.txActive = false →
    Returns (.specifyMp3Track t) s (.frame (wireFrame 0x12 (BitVec.ofNat 8 (min t.toNat 9999 / 256))
      (BitVec.ofNat 8 (min t.toNat 9999 % 256)))) ∧
    Returns (.specifyAdvertisement t) s (.frame (wireFrame 0x13 (BitVec.ofNat 8 (min t.toNat 9999 / 256))
      (BitVec.ofNat 8 (min t.toNat 9999 % 256))))

/-- R151: the static bytes, the identifier and the checksum law of every command's frame. The spec marks R151 as its own
inference from R150. -/
def Obligations.EveryCommandFrameObeysTheFrameLaw : Prop :=
  ∀ (s : State) (c : Command), s.txActive = false →
    ∃ F : Frame, Returns c.instr s (.frame F) ∧
      F[0] = 0x7E ∧ F[1] = 0xFF ∧ F[2] = 0x06 ∧ F[3] = c.id ∧ F[4] = 0x00 ∧ F[9] = 0xEF ∧
      256 * F[7].toNat + F[8].toNat =
        (65536 - (F[1].toNat + F[2].toNat + F[3].toNat + F[4].toNat + F[5].toNat + F[6].toNat)) % 65536 ∧
      256 * F[7].toNat + F[8].toNat = 0xFEFB - F[3].toNat - F[5].toNat - F[6].toNat

/-- R170: `encode` is total on Command, and two commands return one frame exactly when they agree after clamping. The spec
marks R170 as its own inference. -/
def Obligations.CommandFramesAreInjectiveAfterClamping : Prop :=
  ∀ s : State, s.txActive = false →
    (∀ c : Command, ∃ F, Returns c.instr s (.frame F)) ∧
    ∀ c d : Command, (∃ F, Returns c.instr s (.frame F) ∧ Returns d.instr s (.frame F)) ↔ c.clamped = d.clamped

/-- R123, R125: the clamp is the three-way choice on unsigned integers, idempotent and monotone. The spec marks the last
two properties as its own inference (R125); that `encode` applies the clamp is its decision D5. -/
def Obligations.ClampSaturates : Prop :=
  ∀ (w : Nat) (v u lo hi : BitVec w), lo ≤ hi →
    (v < lo → clamp v lo hi = lo) ∧ (hi < v → clamp v lo hi = hi) ∧ (lo ≤ v → v ≤ hi → clamp v lo hi = v) ∧
    clamp (clamp v lo hi) lo hi = clamp v lo hi ∧ (v ≤ u → clamp v lo hi ≤ clamp u lo hi)

/-! ### Queries -/

/-- R191, R193 to R197: the queries without an identifier return NotSupported, and sending one offers the transport no
byte. -/
def Obligations.UnimplementedQueriesAreNotSupported : Prop :=
  ∀ s : State, s.txActive = false →
    (Returns .queryStatus s .notSupported ∧ Returns (.send (.query .status)) s .notSupported) ∧
    (Returns .queryEqualizer s .notSupported ∧ Returns (.send (.query .equalizer)) s .notSupported) ∧
    (Returns .queryPlaybackMode s .notSupported ∧ Returns (.send (.query .playbackMode)) s .notSupported) ∧
    (Returns .querySoftwareVersion s .notSupported ∧ Returns (.send (.query .softwareVersion)) s .notSupported) ∧
    (Returns .queryFileCountInFolder s .notSupported ∧ Returns (.send (.query .fileCountInFolder)) s .notSupported) ∧
    (Returns .queryFolderCount s .notSupported ∧ Returns (.send (.query .folderCount)) s .notSupported)

/-! ### Transmitting -/

/-- R210: the loop on every course the transport's answers can take: ten acceptances; `k` acceptances and a rejection; `k`
acceptances and no answer, at once or ever. That a `transmit` without an answer is a next state with `txActive` set is the
model's choice (notes/assumptions/1.md, notes/assumptions/8.md), and so is what `txframe` and `txidx` hold after the end
(notes/assumptions/12.md). -/
def Obligations.TransmitRunsItsLoop : Prop :=
  ∀ (F : Frame) (s : State), s.txActive = false →
    (∀ rest, s.writeAnswers = List.replicate 10 (some .accepted) ++ rest →
      exec (.transmit F) s = .next { s with
        txframe := F, txidx := 10, writeAnswers := rest,
        writes := s.writes ++ F.toList.map fun b => (b, .accepted),
        outcomes := s.outcomes ++ [.ok] }) ∧
    (∀ (k : Fin 10) rest, s.writeAnswers = List.replicate k.val (some .accepted) ++ some .rejected :: rest →
      exec (.transmit F) s = .next { s with
        txframe := F, txidx := k.castSucc, writeAnswers := rest,
        writes := s.writes ++ ((F.toList.take k.val).map fun b => (b, .accepted)) ++ [(F[k], .rejected)],
        outcomes := s.outcomes ++ [.writeFailure] }) ∧
    (∀ (k : Fin 10) rest, (rest = [] ∨ ∃ later, rest = none :: later) →
      s.writeAnswers = List.replicate k.val (some .accepted) ++ rest →
      exec (.transmit F) s = .next { s with
        txframe := F, txidx := k.castSucc, txActive := true, writeAnswers := rest,
        writes := s.writes ++ (F.toList.take k.val).map fun b => (b, .accepted) })

/-- R211: whatever the transport answers, a `transmit` that ends has offered a prefix of its frame in order, each byte
once, and a `transmit` that has not ended has had a prefix accepted and returned nothing. That the rejected byte counts as
not sent is the spec's own decision D22. -/
def Obligations.TransmitOffersAPrefixOnce : Prop :=
  ∀ (F : Frame) (s : State), s.txActive = false → ∃ t, exec (.transmit F) s = .next t ∧
    ((t.txActive = false ∧ t.outcomes = s.outcomes ++ [.ok] ∧ t.txidx = 10 ∧
        t.writes = s.writes ++ F.toList.map fun b => (b, .accepted)) ∨
      (∃ k : Fin 10, t.txActive = false ∧ t.outcomes = s.outcomes ++ [.writeFailure] ∧ t.txidx = k.castSucc ∧
        t.writes = s.writes ++ ((F.toList.take k.val).map fun b => (b, .accepted)) ++ [(F[k], .rejected)]) ∨
      (∃ k : Fin 10, t.txActive = true ∧ t.outcomes = s.outcomes ∧ t.txidx = k.castSucc ∧
        t.writes = s.writes ++ (F.toList.take k.val).map fun b => (b, .accepted)))

/-- R214: `send` of a Command or of an implemented query is `transmit` of the frame `encode` returns for it; of any other
query it is NotSupported with no write. For a Command it is never NotSupported. That `send` is this composition is the
spec's own decision D18. -/
def Obligations.SendIsEncodeThenTransmit : Prop :=
  ∀ s : State, s.txActive = false →
    (∀ c : Command, ∃ F, Returns c.instr s (.frame F) ∧ exec (.send (.command c)) s = exec (.transmit F) s) ∧
    (∀ q : Query, (∃ F, Returns q.instr s (.frame F) ∧ exec (.send (.query q)) s = exec (.transmit F) s) ∨
      (Returns q.instr s .notSupported ∧ Returns (.send (.query q)) s .notSupported))

/-- Every `send` completes: it answers a next state in which the reassembler and the caller's requests stand as before. It
is the model's form of R31, which the spec marks as its own inference; a `transmit` that waits is a next state too
(notes/assumptions/8.md). -/
def Obligations.SendCompletesAndLeavesTheReassembler : Prop :=
  ∀ (v : Message) (s : State), s.txActive = false → ∃ t, exec (.send v) s = .next t ∧
    t.buf = s.buf ∧ t.cursor = s.cursor ∧ t.calls = s.calls ∧ t.readAnswers = s.readAnswers ∧ t.consumed = s.consumed

/-- If the transport answers every write, `transmit` ends after at most ten answers (the liveness sentence of R330). That
the transport's answers are queued is the model's choice (notes/assumptions/1.md). -/
def Obligations.TransmitEndsWithinTenAnswers : Prop :=
  ∀ (F : Frame) (s : State) (as : List WriteAnswer) (rest : List (Option WriteAnswer)),
    s.txActive = false → as.length = 10 → s.writeAnswers = as.map some ++ rest →
    ∃ t, exec (.transmit F) s = .next t ∧ t.txActive = false ∧
      (t.outcomes = s.outcomes ++ [.ok] ∨ t.outcomes = s.outcomes ++ [.writeFailure]) ∧
      ∃ n, n ≤ 10 ∧ t.writeAnswers = s.writeAnswers.drop n

/-- A transport that accepts `k` bytes and never answers again leaves the `transmit` in progress for ever (R212, R319): the
caller may go on asking whatever it likes but a creation, and no number of steps ends the `transmit`, moves its registers or
offers another byte; a caller who asks nothing sees no change at all. How a run shows a hang, and which requests have a turn
meanwhile, is the model's choice (notes/assumptions/1.md, notes/assumptions/8.md, notes/assumptions/14.md). -/
def Obligations.StalledTransmitNeverEnds : Prop :=
  ∀ (F : Frame) (s : State) (k : Fin 10) (n : Nat),
    s.txActive = false → .create ∉ s.calls → s.writeAnswers = List.replicate k.val (some .accepted) →
    ∃ t u, exec (.transmit F) s = .next t ∧ t.txActive = true ∧ t.txframe = F ∧ t.txidx = k.castSucc ∧
      t.writes = s.writes ++ (F.toList.take k.val).map (fun b => (b, .accepted)) ∧
      steps n t = .next u ∧ u.txActive = true ∧ u.txframe = F ∧ u.txidx = k.castSucc ∧ u.writes = t.writes ∧
      (s.calls = [] → u = t)

/-- Turns in which the transport has not answered yet change nothing of what a `transmit` does: after enough steps the
state is the one that the same answers without those turns give, but for the answers left over (R212, R215). Turns are the
model's choice (notes/assumptions/1.md, notes/assumptions/8.md). -/
def Obligations.WaitingDoesNotChangeATransmit : Prop :=
  ∀ (F : Frame) (s : State), s.txActive = false → s.calls = [] →
    ∃ n t u v, exec (.transmit F) s = .next t ∧ steps n t = .next u ∧
      exec (.transmit F) { s with writeAnswers := s.writeAnswers.filter Option.isSome } = .next v ∧
      u.writeAnswers.filter Option.isSome = v.writeAnswers ∧ { u with writeAnswers := [] } = { v with writeAnswers := [] }

/-- R213: after a WriteFailure nothing is resent and the block does nothing on its own; the next `transmit` starts at offset 0
of its own frame, whose bytes follow directly on the accepted prefix. -/
def Obligations.NextFrameFollowsABrokenPrefix : Prop :=
  ∀ (F G : Frame) (s : State) (k : Fin 10) (rest : List (Option WriteAnswer)), s.txActive = false →
    s.writeAnswers = List.replicate k.val (some .accepted) ++ some .rejected :: (List.replicate 10 (some .accepted) ++ rest) →
    ∃ t u, exec (.transmit F) s = .next t ∧ t.accepted = s.accepted ++ F.toList.take k.val ∧
      (s.calls = [] → ∀ n, steps n t = .next t) ∧ exec (.transmit G) t = .next u ∧
      u.accepted = s.accepted ++ F.toList.take k.val ++ G.toList ∧ u.outcomes = s.outcomes ++ [.writeFailure, .ok]

/-- While a `transmit` waits for the transport, a request to the transmitter is not accepted and stays with the caller; when
the transport has answered, the step goes on with the `transmit`, which records that answer to the write of its next byte.
R215's command port is the spec's own decision D17; that the request waits is the model's choice
(notes/assumptions/8.md). -/
def Obligations.TransmitterRequestsWaitForTheRunningTransmit : Prop :=
  ∀ (s : State) (c : Call) (rest : List Call), s.txActive = true → s.calls = c :: rest → c.agent = some .transmitter →
    (s.writeAnswers = [] → step s = .next s) ∧
    (∀ later, s.writeAnswers = none :: later → step s = .next { s with writeAnswers := later }) ∧
    (∀ a later, s.writeAnswers = some a :: later → step s = .next (txRun s) ∧ (txRun s).calls = s.calls ∧
      ∀ k : Fin 10, s.txidx = k.castSucc → s.writes ++ [(s.txframe[k], a)] <+: (txRun s).writes)

/-- While a `transmit` waits for the transport, an `rx_step` runs as at any other time (R12, R212). This is the hardware
reading of R12, the spec's own decision D21, with the model's turns (notes/assumptions/8.md). -/
def Obligations.ReassemblerRunsWhileATransmitWaits : Prop :=
  ∀ (s : State) (a : ReadAnswer) (rs : List ReadAnswer) (rest : List Call), s.txActive = true →
    s.calls = .rxStep :: rest → s.readAnswers = a :: rs →
    (s.writeAnswers = [] → step s = exec a.instr { s with calls := rest, readAnswers := rs }) ∧
    (∀ later, s.writeAnswers = none :: later →
      step s = exec a.instr { s with calls := rest, readAnswers := rs, writeAnswers := later })

/-- R62: an operation of the transmitter that overlaps a running `transmit` is refused; an `rx_step` may overlap it
freely. That overlap means two operations of one agent is the spec's own decision D21. -/
def Obligations.OverlappingTransmitterOperationsAreRefused : Prop :=
  ∀ (s : State) (i : Instr), s.txActive = true →
    (isTransmitterOp i → exec i s = .refused .overlappingOperation) ∧
    (isReassemblerOp i → ∃ t, exec i s = .next t ∧ t.txframe = s.txframe ∧ t.txidx = s.txidx ∧ t.txActive = true)

/-! ### Receiving -/

/-- R234: a start marker clears the buffer whatever `cursor` is. That all ten bytes become `0x00` is the spec's own
decision D6. -/
def Obligations.StartMarkerResetsTheBuffer : Prop :=
  ∀ s : State, exec .rxStart s = .next { s with
    buf := #v[0x7E, 0x00, 0x00, 0x00, 0x00, 0x00, 0x00, 0x00, 0x00, 0x00], cursor := 1,
    consumed := s.consumed ++ [0x7E], outcomes := s.outcomes ++ [.incomplete] }

/-- R235: an end marker with room is stored and the whole buffer is handed over, at every `cursor` from 0 to 9; where the
bytes from `cursor` on were clear, the frame is clear after the marker. That every `cursor` from 0 to 9 completes is the
spec's own decision D23; the bytes after the marker rest on R34, its own inference. -/
def Obligations.EndMarkerWithRoomCompletes : Prop :=
  ∀ (s : State) (c : Fin 10), s.cursor = c.castSucc →
    exec .rxEnd s = .next { s with
      buf := s.buf.set c.val 0xEF, cursor := c.succ,
      consumed := s.consumed ++ [0xEF], outcomes := s.outcomes ++ [.complete (s.buf.set c.val 0xEF)] } ∧
    (s.TailClear → ∀ i : Fin 10, c.val < i.val → (s.buf.set c.val 0xEF)[i] = 0x00)

/-- R236: an end marker at `cursor` 10 is Overrun, and `buf` and `cursor` stay. -/
def Obligations.EndMarkerWithoutRoomOverruns : Prop :=
  ∀ s : State, s.cursor = 10 → exec .rxEnd s = .next { s with
    consumed := s.consumed ++ [0xEF], outcomes := s.outcomes ++ [.overrun] }

/-- R237: a data byte with room is stored at `cursor`, at `cursor` 0 too. -/
def Obligations.DataByteWithRoomIsStored : Prop :=
  ∀ (s : State) (b : Byte) (c : Fin 10), b ≠ 0x7E → b ≠ 0xEF → s.cursor = c.castSucc →
    exec (.rxData b) s = .next { s with
      buf := s.buf.set c.val b, cursor := c.succ,
      consumed := s.consumed ++ [b], outcomes := s.outcomes ++ [.incomplete] }

/-- R238: a data byte at `cursor` 10 is dropped with the outcome Incomplete. -/
def Obligations.DataByteWithoutRoomIsDropped : Prop :=
  ∀ (s : State) (b : Byte), b ≠ 0x7E → b ≠ 0xEF → s.cursor = 10 →
    exec (.rxData b) s = .next { s with consumed := s.consumed ++ [b], outcomes := s.outcomes ++ [.incomplete] }

/-- R232, R233: an invocation that obtains no byte returns NoData or ReadFailure and changes nothing else. That nothing
changes is the spec's own decision D9. -/
def Obligations.NoByteNoChange : Prop :=
  ∀ s : State, Returns .rxNoData s .noData ∧ Returns .rxReadError s .readFailure

/-- `cursor` is written by a received byte, to 1 by a start marker and else one up to at most 10, and by creation; a step
that takes no byte and creates nothing leaves it (R22, R242). A step takes at most one byte (R231). The spec marks R242 as
its own inference; what creation does to a `transmit` is the model's choice (notes/assumptions/9.md). -/
def Obligations.CursorFollowsTheReceivedByte : Prop :=
  ∀ s t : State, step s = .next t →
    (t.consumed = s.consumed ∧ (s.calls.head? ≠ some .create → t.cursor = s.cursor ∧ t.buf = s.buf)) ∨
    ∃ b, t.consumed = s.consumed ++ [b] ∧ t.cursor.val = if b = 0x7E then 1 else min 10 (s.cursor.val + 1)

/-- A byte that is read is written into `buf` at `cursor` and nowhere else (R21, R54): every other register of `buf` is
unchanged, but that a start marker clears them. It is an inference from the transitions R235 to R238. -/
def Obligations.ReceivedByteTouchesOneRegister : Prop :=
  ∀ (s t : State) (b : Byte), b ≠ 0x7E → exec (ReadAnswer.byte b).instr s = .next t →
    ∀ i : Fin 10, t.buf[i] = if i.val = s.cursor.val then b else s.buf[i]

/-- Idle is left by the first received byte of any kind (R23). It is an inference from the transitions R234 to R238. -/
def Obligations.AnyByteLeavesIdle : Prop :=
  ∀ (s : State) (b : Byte), ∃ t, exec (ReadAnswer.byte b).instr s = .next t ∧ t.rxPhase ≠ .idle ∧ t.rxPhase =
    (if b = 0x7E ∨ s.cursor.val < 9 then .accumulating else .full)

/-- R34: every step keeps the buffer clear from `cursor` on. The spec marks R34 as its own inference. -/
def Obligations.StepKeepsTheBufferTailClear : Prop :=
  ∀ s t : State, s.TailClear → step s = .next t → t.TailClear

/-- Reset has a clear buffer, and no `transmit` in progress to be unsound. The invariants are the model's; the clear
buffer is the spec's own decision D7. -/
def Obligations.ResetIsSound : Prop := State.reset.TailClear ∧ State.reset.TxSound

/-- Every step keeps the record of a `transmit` in progress exact: what the peripheral has seen of it is `txframe[0 ..
txidx-1]` (R32). The record is the model's own field (notes/assumptions/11.md). -/
def Obligations.StepKeepsTheTransmitSound : Prop :=
  ∀ s t : State, s.TxSound → step s = .next t → t.TxSound

/-- The round trip of R246: a sequence with its markers at offsets 0 and 9 only is handed over whole at its tenth byte and
not before, from any state. The condition is the spec's resolution of a conflict (C4). -/
def Obligations.MarkerFreeFramesRoundTrip : Prop :=
  ∀ (F : Frame) (s : State), s.txActive = false → F[0] = 0x7E → F[9] = 0xEF →
    (∀ i : Fin 10, 1 ≤ i.val → i.val ≤ 8 → F[i] ≠ 0x7E ∧ F[i] ≠ 0xEF) →
    ∃ t, steps 10 (feedingBytes s F.toList) = .next t ∧ t.buf = F ∧ t.cursor = 10 ∧
      t.outcomes = s.outcomes ++ List.replicate 9 .incomplete ++ [.complete F]

/-- The first of the other cases of R246: with end markers inside and no start marker, there is one Complete for each end
marker and the last hands over the whole sequence. It follows the spec's decision D23. -/
def Obligations.InnerEndMarkersCompleteEarly : Prop :=
  ∀ (F : Frame) (s : State), s.txActive = false → F[0] = 0x7E → F[9] = 0xEF →
    (∀ i : Fin 10, 1 ≤ i.val → i.val ≤ 8 → F[i] ≠ 0x7E) →
    ∃ t, steps 10 (feedingBytes s F.toList) = .next t ∧ t.buf = F ∧ t.cursor = 10 ∧
      t.completes = s.completes + F.toList.count 0xEF ∧ t.outcomes.getLast? = some (.complete F)

/-- The second of the other cases of R246: a start marker inside resets the buffer, and what is handed over at the tenth
byte is the sequence from that marker on, followed by BUF_CLEAR. It is an inference from the transitions R234 to R237. -/
def Obligations.InnerStartMarkerTruncatesTheFrame : Prop :=
  ∀ (F : Frame) (s : State) (j : Fin 10), s.txActive = false → F[0] = 0x7E → F[9] = 0xEF → 1 ≤ j.val → j.val ≤ 8 →
    F[j] = 0x7E → (∀ i : Fin 10, 1 ≤ i.val → i.val ≤ 8 → i ≠ j → F[i] ≠ 0x7E ∧ F[i] ≠ 0xEF) →
    ∃ t G, steps 10 (feedingBytes s F.toList) = .next t ∧ t.cursor.val = 10 - j.val ∧
      t.outcomes = s.outcomes ++ List.replicate 9 .incomplete ++ [.complete G] ∧
      G.toList = F.toList.drop j.val ++ List.replicate j.val 0x00

/-- R247: whatever stands before it, a start marker discards the partial frame, and a frame without inner markers that it
begins is assembled normally. A sequence before it without end markers is lost with no outcome that says so. The last
clause is the spec's vector S4, whose outcomes the spec marks as its own inference. -/
def Obligations.SpuriousStartMarkerResynchronises : Prop :=
  ∀ s : State, s.txActive = false →
    (∀ (before : List Byte) (F : Frame), F[0] = 0x7E → F[9] = 0xEF →
      (∀ i : Fin 10, 1 ≤ i.val → i.val ≤ 8 → F[i] ≠ 0x7E ∧ F[i] ≠ 0xEF) →
      ∃ t seen, steps (before.length + 10) (feedingBytes s (before ++ F.toList)) = .next t ∧ t.buf = F ∧ t.cursor = 10 ∧
        seen.length = before.length ∧ t.outcomes = s.outcomes ++ seen ++ List.replicate 9 .incomplete ++ [.complete F] ∧
        ((∀ b ∈ before, b ≠ 0xEF) → seen = List.replicate before.length .incomplete)) ∧
    ∃ t, steps 12 (feedingBytes s [0x7E, 0x01, 0x7E, 0xFF, 0x06, 0x0D, 0x00, 0x00, 0x00, 0xFE, 0xEE, 0xEF]) = .next t ∧
      t.outcomes = s.outcomes ++ List.replicate 11 .incomplete ++
        [.complete #v[0x7E, 0xFF, 0x06, 0x0D, 0x00, 0x00, 0x00, 0xFE, 0xEE, 0xEF]]

/-- Between two start markers there are at most `10 - cursor` Complete outcomes: nine after a start marker, ten after
reset (R248). The spec marks R248 as its own inference. -/
def Obligations.CompletesBetweenStartMarkersAreBounded : Prop :=
  ∀ (s : State) (bytes : List Byte), s.txActive = false → (∀ b ∈ bytes, b ≠ 0x7E) →
    ∃ t, steps bytes.length (feedingBytes s bytes) = .next t ∧ t.completes ≤ s.completes + (10 - s.cursor.val)

/-- Once the buffer is full, any number of data bytes is dropped without a change to `buf` or `cursor`, each with the
outcome Incomplete, and an end marker after them is Overrun (R236, R238, R322). It is an inference from the transitions. -/
def Obligations.FullBufferIsDeafUntilAStartMarker : Prop :=
  ∀ (s : State) (bytes : List Byte), s.txActive = false → s.cursor = 10 → (∀ b ∈ bytes, b ≠ 0x7E ∧ b ≠ 0xEF) →
    ∃ t, steps (bytes.length + 1) (feedingBytes s (bytes ++ [0xEF])) = .next t ∧ t.buf = s.buf ∧ t.cursor = 10 ∧
      t.outcomes = s.outcomes ++ List.replicate bytes.length .incomplete ++ [.overrun]

/-- Ten non-marker bytes from a fresh instance fill the buffer, and an end marker after them is Overrun, not a frame. It
is the spec's vector S5 for any ten such bytes. -/
def Obligations.TenDataBytesThenEndMarkerOverrun : Prop :=
  ∀ (s : State) (F : Frame), s.txActive = false → s.cursor = 0 → (∀ i : Fin 10, F[i] ≠ 0x7E ∧ F[i] ≠ 0xEF) →
    ∃ t, steps 11 (feedingBytes s (F.toList ++ [0xEF])) = .next t ∧ t.buf = F ∧ t.cursor = 10 ∧
      t.outcomes = s.outcomes ++ List.replicate 10 .incomplete ++ [.overrun]

/-! ### Encoding -/

/-- Words written out from spec/opcode_table.json and spec/95_test_vectors.md decode to the instruction they stand for.
That the checksum must hold is the model's decoder (notes/assumptions/7.md). -/
def Obligations.WrittenWordsDecode : Prop :=
  decodeTableWord 80 0x7EFF0602000000FEF9EF = some .previous ∧
  decodeTableWord 80 0x7EFF0603000BB7FE36EF = some (.specifyTrack 2999) ∧
  decodeTableWord 80 0x7EFF060600000FFEE6EF = some (.specifyVolume 15) ∧
  decodeTableWord 80 0x7EFF0607000005FEEFEF = some (.specifyEqualizer .bass) ∧
  decodeTableWord 80 0x7EFF060F0063FFFD8AEF = some (.specifyFolder 99 255) ∧
  decodeTableWord 80 0x7EFF0602000000FEF8EF = none ∧ decodeTableWord 80 0x7EFF0609000000FEF2EF = none ∧
  decodeTableWord 8 0x7E = some .rxStart ∧ decodeTableWord 8 0xEF = some .rxEnd ∧
  decodeTableWord 8 0x41 = some (.rxData 0x41)

/-- Decoding the pattern of any instruction that has one gives the instruction back, its operands clamped, Query Volume
read as Next. The decoder is the model's (notes/assumptions/7.md). -/
def Obligations.DecodeReversesEncode : Prop :=
  ∀ (i : Instr) (bytes : List Byte), encode i = some bytes →
    decode bytes = .ok i.canonical ∧ (i.wellFormed = true → i ≠ .queryVolume → i.canonical = i)

/-- Every pattern the decoder accepts is the pattern of the instruction it gives, and that instruction is well formed:
each pattern has one meaning. The decoder is the model's (notes/assumptions/7.md). -/
def Obligations.EncodeReversesDecode : Prop :=
  ∀ (bytes : List Byte) (i : Instr), decode bytes = .ok i → encode i = some bytes ∧ i.wellFormed = true

/-- The frame the machine computes by the algorithm of R150 is the bit pattern the table gives the row. It compares two
forms in which the spec gives the frames. -/
def Obligations.MachineFramesAreTheTablePatterns : Prop :=
  ∀ (s : State) (v : Message) (F : Frame), s.txActive = false →
    (Returns v.instr s (.frame F) ↔ encode v.instr = some F.toList)

/-- R130: a byte converts exactly to the member whose code it is, and the bytes that fail are those outside the closed
sets. R130 is the spec's own decision D11. -/
def Obligations.ConversionIsTheInverseOfTheCodes : Prop :=
  (∀ (k : EnumKind) (b : Byte) (m : Member), k.convert b = some m ↔ m.kind = k ∧ m.code = b) ∧
  (∀ b : Byte, (EnumKind.playbackMode.convert b = none ↔ 0x04 ≤ b) ∧ (EnumKind.equalizer.convert b = none ↔ 0x06 ≤ b) ∧
    (EnumKind.peripheralState.convert b = none ↔ b = 0x00 ∨ 0x08 ≤ b) ∧
    (EnumKind.device.convert b = none ↔ b = 0x00 ∨ 0x06 ≤ b))

/-- A conversion returns the member or ConversionFailure and changes nothing else; an enumeration byte outside its closed set
at the command port is ConversionFailure, with no frame encoded and no byte sent (R279). The raw byte at the port is R130's
own decision D11 in the model's form, and that a conversion has its turn while a `transmit` waits for the transport is the
model's choice (notes/assumptions/13.md): the `transmit` stays as it is; where the transport has answered, the `transmit` goes
on first and the conversion stays with the caller. -/
def Obligations.FailedConversionBuildsNoCommand : Prop :=
  ∀ (s : State) (rest : List Call) (b : Byte),
    (∀ k, s.calls = .convert k b :: rest → ∃ r,
      ((∃ m, r = .converted m ∧ k.convert b = some m) ∨ (r = .conversionFailure ∧ k.convert b = none)) ∧
      (s.txActive = false ∨ s.writeAnswers = [] →
        step s = .next { s with calls := rest, outcomes := s.outcomes ++ [r] }) ∧
      (∀ later, s.txActive = true → s.writeAnswers = none :: later →
        step s = .next { s with calls := rest, writeAnswers := later, outcomes := s.outcomes ++ [r] }) ∧
      (∀ a later, s.txActive = true → s.writeAnswers = some a :: later →
        step s = .next (txRun s) ∧ (txRun s).calls = s.calls)) ∧
    (s.txActive = false → 0x06 ≤ b → s.calls = .encode (.equalizerByte b) :: rest ∨ s.calls = .send (.equalizerByte b) :: rest →
      step s = .next { s with calls := rest, outcomes := s.outcomes ++ [.conversionFailure] }) ∧
    (s.txActive = false → 0x04 ≤ b →
      s.calls = .encode (.playbackModeByte b) :: rest ∨ s.calls = .send (.playbackModeByte b) :: rest →
      step s = .next { s with calls := rest, outcomes := s.outcomes ++ [.conversionFailure] })

/-! ### The whole machine -/

/-- A step runs the operation the caller invokes: typed or decoded, with its request taken, and for an `rx_step` with the
transport's answer taken and its byte decoded. An enumeration operand that comes to the command port as the raw code of a
member runs the command of that member; that form is the model's (R130, D11, notes/assumptions/13.md), and the request by
pattern is the model's own port (notes/assumptions/4.md). -/
def Obligations.StepRunsTheDecodedInstruction : Prop :=
  ∀ (s : State) (rest : List Call), s.txActive = false →
    (∀ v, s.calls = .encode (.typed v) :: rest → step s = exec v.instr { s with calls := rest }) ∧
    (∀ F, s.calls = .transmit F :: rest → step s = exec (.transmit F) { s with calls := rest }) ∧
    (∀ v, s.calls = .send (.typed v) :: rest → step s = exec (.send v) { s with calls := rest }) ∧
    (∀ b e, Member.code (.equalizer e) = b →
      (s.calls = .encode (.equalizerByte b) :: rest → step s = exec (.specifyEqualizer e) { s with calls := rest }) ∧
      (s.calls = .send (.equalizerByte b) :: rest →
        step s = exec (.send (.command (.specifyEqualizer e))) { s with calls := rest })) ∧
    (∀ b m, Member.code (.playbackMode m) = b →
      (s.calls = .encode (.playbackModeByte b) :: rest → step s = exec (.specifyPlaybackMode m) { s with calls := rest }) ∧
      (s.calls = .send (.playbackModeByte b) :: rest →
        step s = exec (.send (.command (.specifyPlaybackMode m))) { s with calls := rest })) ∧
    (∀ b rs i, s.calls = .rxStep :: rest → s.readAnswers = .byte b :: rs → decode [b] = .ok i →
      step s = exec i { s with calls := rest, readAnswers := rs }) ∧
    (∀ rs, s.calls = .rxStep :: rest → s.readAnswers = .noData :: rs →
      step s = exec .rxNoData { s with calls := rest, readAnswers := rs }) ∧
    (∀ rs, s.calls = .rxStep :: rest → s.readAnswers = .readError :: rs →
      step s = exec .rxReadError { s with calls := rest, readAnswers := rs }) ∧
    (s.calls = .rxStep :: rest → s.readAnswers = [] → step s = exec .rxNoData { s with calls := rest }) ∧
    (∀ bytes i, s.calls = .pattern bytes :: rest → decode bytes = .ok i → step s = exec i { s with calls := rest }) ∧
    (∀ bytes e, s.calls = .pattern bytes :: rest → decode bytes = .error e →
      step s = .refused (.undecodablePattern e))

/-- A pattern placed for the next step is what that step runs. Placing is the model's own port (notes/assumptions/4.md). -/
def Obligations.PlacedPatternRunsNext : Prop :=
  ∀ (s : State) (nbits w : Nat) (i : Instr), decodeTableWord nbits w = some i →
    step (s.withFetchWord nbits w) = exec i { s with txActive := false }

/-- The machine never faults, and refuses only a request that names its operation by a pattern of no row: no overlap of
two operations of one agent ever begins (R62, R215, R284). The request by pattern is the model's own port
(notes/assumptions/4.md). -/
def Obligations.StepStopsOnlyOnAnUndecodablePattern : Prop :=
  ∀ s : State, (∃ t, step s = .next t) ∨
    ∃ bytes rest e, s.calls = .pattern bytes :: rest ∧ decode bytes = .error e ∧ step s = .refused (.undecodablePattern e)

/-- R31: the transmitter leaves the reassembler and the read side alone, the reassembler leaves the transmitter and the
write side alone, and `encode` writes no register of either. The spec marks R31 as its own inference. -/
def Obligations.TheTwoAgentsShareNoState : Prop :=
  ∀ (i : Instr) (s t : State), exec i s = .next t →
    (isTransmitterOp i → t.buf = s.buf ∧ t.cursor = s.cursor ∧ t.readAnswers = s.readAnswers ∧ t.consumed = s.consumed) ∧
    (isReassemblerOp i → t.txframe = s.txframe ∧ t.txidx = s.txidx ∧ t.txActive = s.txActive ∧
      t.writeAnswers = s.writeAnswers ∧ t.writes = s.writes) ∧
    (∀ v : Message, i = v.instr → t.txframe = s.txframe ∧ t.txidx = s.txidx ∧ t.txActive = s.txActive ∧
      t.writeAnswers = s.writeAnswers ∧ t.writes = s.writes)

/-- What one agent does cannot depend on the other's registers (R31): two states that agree on the reassembler and differ
anywhere in the transmitter take an `rx_step` to states that agree on the reassembler, with the same outcome. The spec
marks R31 as its own inference. -/
def Obligations.ReassemblerLearnsNothingOfTheTransmitter : Prop :=
  ∀ (a : ReadAnswer) (s t : State), s.buf = t.buf → s.cursor = t.cursor →
    ∃ s' t' r, exec a.instr s = .next s' ∧ exec a.instr t = .next t' ∧ s'.buf = t'.buf ∧ s'.cursor = t'.cursor ∧
      s'.outcomes = s.outcomes ++ [r] ∧ t'.outcomes = t.outcomes ++ [r]

/-- The two agents may be interleaved either way (R12): an `rx_step` and a turn of the `transmit` in progress give the
same registers, the same bytes sent and the same bytes taken in both orders; only the order of the two outcomes differs.
It is the ground the spec gives for its decision D21. -/
def Obligations.TheAgentsCommute : Prop :=
  ∀ (a : ReadAnswer) (s : State), ∃ t u, exec a.instr s = .next t ∧ exec a.instr (txRun s) = .next u ∧
    { txRun t with outcomes := [] } = { u with outcomes := [] } ∧ (txRun t).outcomes.Perm u.outcomes

/-- A step returns at most one outcome, takes at most one byte, and never rewrites the record (R231, R276, R284). The
record is the model's own (notes/assumptions/11.md). -/
def Obligations.AStepReturnsAtMostOneOutcome : Prop :=
  ∀ s t : State, step s = .next t →
    (t.outcomes = s.outcomes ∨ ∃ r, t.outcomes = s.outcomes ++ [r]) ∧
    (t.consumed = s.consumed ∨ ∃ b, t.consumed = s.consumed ++ [b]) ∧ s.writes <+: t.writes

/-- The record of a run (R331) is never read: two states that differ in it alone step to states that differ in it alone,
or stop alike. The record is the model's own (notes/assumptions/11.md). -/
def Obligations.TheRecordIsNeverRead : Prop :=
  ∀ s s' t : State, s.unrecorded = s'.unrecorded →
    (step s = .next t → ∃ t', step s' = .next t' ∧ t.unrecorded = t'.unrecorded) ∧
    (∀ r, step s = .refused r → step s' = .refused r)
end

