-- ==== Sys2Proof/Laws/Operands.lean ====
section
/-! SUPPORT. What the operand forms compute: the constants, the slices, the clamp, the enumeration codes and the checksum. -/

namespace Sys2Proof

/-! ### The constants of R6 -/

@[simp] theorem config_startMarker : config.startMarker = 0x7E := rfl
@[simp] theorem config_version : config.version = 0xFF := rfl
@[simp] theorem config_length : config.length = 0x06 := rfl
@[simp] theorem config_feedbackNone : config.feedbackNone = 0x00 := rfl
@[simp] theorem config_endMarker : config.endMarker = 0xEF := rfl
@[simp] theorem config_volumeMin : config.volumeMin = 0 := rfl
@[simp] theorem config_volumeMax : config.volumeMax = 30 := rfl
@[simp] theorem config_trackMin : config.trackMin = 0 := rfl
@[simp] theorem config_trackMax : config.trackMax = 9999 := rfl
@[simp] theorem config_folderMin : config.folderMin = 0 := rfl
@[simp] theorem config_folderMax : config.folderMax = 99 := rfl
@[simp] theorem config_cksumFirst : config.cksumFirst = 1 := rfl
@[simp] theorem config_cksumLast : config.cksumLast = 6 := rfl
@[simp] theorem config_queryVolumeId : config.queryVolumeId = 0x01 := rfl
@[simp] theorem config_bufClear : config.bufClear = 0x00 := rfl

/-! ### Slices (R8, R52) -/

theorem hi8_toNat (v : Half) : (hi8 v).toNat = v.toNat / 256 := by
  have := v.isLt
  simp [hi8, Nat.shiftRight_eq_div_pow]
  omega

theorem lo8_toNat (v : Half) : (lo8 v).toNat = v.toNat % 256 := by
  simp [lo8]

theorem joinBytes_toNat (hi lo : Byte) : (joinBytes hi lo).toNat = 256 * hi.toNat + lo.toNat := by
  have := lo.isLt
  simp only [joinBytes, BitVec.toNat_append]
  rw [Nat.shiftLeft_eq, ← Nat.shiftLeft_eq, ← Nat.shiftLeft_add_eq_or_of_lt (by omega), Nat.shiftLeft_eq]
  omega

@[simp] theorem joinBytes_hi8_lo8 (v : Half) : joinBytes (hi8 v) (lo8 v) = v := by
  apply BitVec.eq_of_toNat_eq
  rw [joinBytes_toNat, hi8_toNat, lo8_toNat]
  omega

@[simp] theorem hi8_joinBytes (hi lo : Byte) : hi8 (joinBytes hi lo) = hi := by
  apply BitVec.eq_of_toNat_eq
  have := lo.isLt
  rw [hi8_toNat, joinBytes_toNat]
  omega

@[simp] theorem lo8_joinBytes (hi lo : Byte) : lo8 (joinBytes hi lo) = lo := by
  apply BitVec.eq_of_toNat_eq
  have := lo.isLt
  rw [lo8_toNat, joinBytes_toNat]
  omega

/-! ### The clamp (R123) -/

theorem clamp_of_mem {w : Nat} {v lo hi : BitVec w} (h₁ : lo ≤ v) (h₂ : v ≤ hi) : clamp v lo hi = v := by
  rw [clamp, if_neg (BitVec.not_lt.2 h₁), if_neg (BitVec.not_lt.2 h₂)]

theorem clamp_mem {w : Nat} (v : BitVec w) {lo hi : BitVec w} (h : lo ≤ hi) :
    lo ≤ clamp v lo hi ∧ clamp v lo hi ≤ hi := by
  unfold clamp
  split
  · exact ⟨BitVec.le_refl _, h⟩
  · split
    · exact ⟨h, BitVec.le_refl _⟩
    · exact ⟨BitVec.not_lt.1 ‹_›, BitVec.not_lt.1 ‹_›⟩

theorem clamp_idem {w : Nat} (v : BitVec w) {lo hi : BitVec w} (h : lo ≤ hi) :
    clamp (clamp v lo hi) lo hi = clamp v lo hi :=
  clamp_of_mem (clamp_mem v h).1 (clamp_mem v h).2

/-- With the floor 0 the clamp is a minimum (R125). -/
theorem clamp_zero_toNat {w : Nat} (v hi : BitVec w) : (clamp v 0 hi).toNat = min v.toNat hi.toNat := by
  unfold clamp
  split
  · rename_i h; simp [BitVec.lt_def] at h
  · split <;> rename_i h <;> simp only [BitVec.lt_def] at h <;> omega

@[simp] theorem Command.clamped_clamped (c : Command) : c.clamped.clamped = c.clamped := by
  cases c <;> simp [Command.clamped, clamp_idem]

theorem Command.wellFormed_clamped (c : Command) : c.clamped.wellFormed = true := by
  cases c <;> simp [Command.clamped, Command.wellFormed, clamp_mem]

/-- A well-formed Command is already clamped. -/
theorem Command.clamped_of_wellFormed {c : Command} (h : c.wellFormed = true) : c.clamped = c := by
  cases c <;> simp only [Command.wellFormed, Bool.and_eq_true, decide_eq_true_eq] at h <;>
    simp only [Command.clamped] <;> rw [clamp_of_mem h.1 h.2]

@[simp] theorem Command.id_clamped (c : Command) : c.clamped.id = c.id := by cases c <;> rfl

@[simp] theorem Command.params_clamped (c : Command) : c.clamped.params = c.params := by
  simp [Command.params]

/-! ### Enumerations (R130) -/

@[simp] theorem PlaybackMode.ofByte_code (m : PlaybackMode) : PlaybackMode.ofByte m.code = some m := by cases m <;> rfl
@[simp] theorem Equalizer.ofByte_code (e : Equalizer) : Equalizer.ofByte e.code = some e := by cases e <;> rfl
@[simp] theorem PeripheralState.ofByte_code (p : PeripheralState) : PeripheralState.ofByte p.code = some p := by
  cases p <;> rfl
@[simp] theorem Device.ofByte_code (d : Device) : Device.ofByte d.code = some d := by cases d <;> rfl

theorem PlaybackMode.code_of_ofByte {b : Byte} {m : PlaybackMode} (h : PlaybackMode.ofByte b = some m) : m.code = b := by
  unfold PlaybackMode.ofByte at h
  repeat' split at h
  all_goals first | (cases h; done) | (cases h; simp_all [PlaybackMode.code])

theorem Equalizer.code_of_ofByte {b : Byte} {e : Equalizer} (h : Equalizer.ofByte b = some e) : e.code = b := by
  unfold Equalizer.ofByte at h
  repeat' split at h
  all_goals first | (cases h; done) | (cases h; simp_all [Equalizer.code])

/-- Converting the code of a member gives the member back. -/
theorem EnumKind.convert_code (m : Member) : m.kind.convert m.code = some m := by
  cases m <;> simp [Member.kind, Member.code, EnumKind.convert]

/-! ### The checksum (R92) -/

/-- The six-byte sum of R92, written out. -/
theorem sum16_eq (F : Frame) :
    sum16 F = F[1].zeroExtend 16 + F[2].zeroExtend 16 + F[3].zeroExtend 16 + F[4].zeroExtend 16 + F[5].zeroExtend 16
      + F[6].zeroExtend 16 := by
  obtain ⟨⟨l⟩, hl⟩ := F
  match l, hl with
  | [f0, f1, f2, f3, f4, f5, f6, f7, f8, f9], _ => simp [sum16]

/-- No six bytes wrap the sum (R93). -/
theorem sum16_toNat (F : Frame) :
    (sum16 F).toNat = F[1].toNat + F[2].toNat + F[3].toNat + F[4].toNat + F[5].toNat + F[6].toNat := by
  have := F[1].isLt; have := F[2].isLt; have := F[3].isLt
  have := F[4].isLt; have := F[5].isLt; have := F[6].isLt
  rw [sum16_eq]
  simp only [BitVec.truncate_eq_setWidth, BitVec.toNat_add, BitVec.toNat_setWidth]
  omega

theorem cksum_toNat (F : Frame) :
    (cksum F).toNat =
      (65536 - (F[1].toNat + F[2].toNat + F[3].toNat + F[4].toNat + F[5].toNat + F[6].toNat)) % 65536 := by
  rw [cksum, BitVec.toNat_sub, sum16_toNat]
  simp

/-! ### Received-byte classes (R98) -/

@[simp] theorem decodeRxByte_start : decodeRxByte 0x7E = .rxStart := rfl
@[simp] theorem decodeRxByte_end : decodeRxByte 0xEF = .rxEnd := rfl

theorem decodeRxByte_data {b : Byte} (h₁ : b ≠ 0x7E) (h₂ : b ≠ 0xEF) : decodeRxByte b = .rxData b := by
  rw [decodeRxByte, if_neg h₁, if_neg h₂]

end Sys2Proof
end

