-- ==== Sys2Proof/Laws/Decode.lean ====
section
/-! SUPPORT. What the decoder accepts, said once. -/

namespace Sys2Proof

/-! ### What the decoder gives -/

theorem acceptIf_ok {ok : Bool} {i j : Instr} (h : acceptIf ok i = .ok j) : ok = true ∧ i = j := by
  unfold acceptIf at h
  split at h
  · exact ⟨‹_›, by simpa using h⟩
  · cases h

theorem acceptCode_ok {α : Type} {p5 : Byte} {m : Option α} {mk : α → Instr} {j : Instr}
    (h : acceptCode p5 m mk = .ok j) : ∃ a, m = some a ∧ p5 = 0x00 ∧ mk a = j := by
  unfold acceptCode at h
  split at h
  · obtain ⟨h₁, h₂⟩ := acceptIf_ok h
    exact ⟨_, rfl, by simpa using h₁, h₂⟩
  · cases h

/-- A frame's body is read by the row that has its identifier. -/
theorem decodeBody_row {id p5 p6 : Byte} {i : Instr} (h : decodeBody id p5 p6 = .ok i) :
    ∃ row : FrameRow, row.ident = id ∧ row.read p5 p6 = .ok i := by
  unfold decodeBody at h
  split at h
  · rename_i row hrow
    exact ⟨row, by simpa using List.find?_some hrow, h⟩
  · cases h

/-- A row with operands that stand in its frame reads as a Command. -/
theorem FrameRow.read_command {row : FrameRow} {p5 p6 : Byte} {i : Instr} (h : row.read p5 p6 = .ok i) :
    ∃ c : Command, i = c.instr := by
  cases row
  case next => exact ⟨.next, (acceptIf_ok h).2.symm⟩
  case previous => exact ⟨.previous, (acceptIf_ok h).2.symm⟩
  case specifyTrack => exact ⟨.specifyTrack (joinBytes p5 p6), by cases h; rfl⟩
  case increaseVolume => exact ⟨.increaseVolume, (acceptIf_ok h).2.symm⟩
  case decreaseVolume => exact ⟨.decreaseVolume, (acceptIf_ok h).2.symm⟩
  case specifyVolume => exact ⟨.specifyVolume p6, (acceptIf_ok h).2.symm⟩
  case specifyEqualizer =>
    obtain ⟨e, -, -, he⟩ := acceptCode_ok h
    exact ⟨.specifyEqualizer e, he.symm⟩
  case specifyPlaybackMode =>
    obtain ⟨m, -, -, hm⟩ := acceptCode_ok h
    exact ⟨.specifyPlaybackMode m, hm.symm⟩
  case standby => exact ⟨.standby, (acceptIf_ok h).2.symm⟩
  case normalWorking => exact ⟨.normalWorking, (acceptIf_ok h).2.symm⟩
  case resetModule => exact ⟨.resetModule, (acceptIf_ok h).2.symm⟩
  case playback => exact ⟨.playback, (acceptIf_ok h).2.symm⟩
  case pause => exact ⟨.pause, (acceptIf_ok h).2.symm⟩
  case specifyFolder => exact ⟨.specifyFolder p5 p6, (acceptIf_ok h).2.symm⟩
  case specifyMp3Track => exact ⟨.specifyMp3Track (joinBytes p5 p6), (acceptIf_ok h).2.symm⟩
  case specifyAdvertisement => exact ⟨.specifyAdvertisement (joinBytes p5 p6), (acceptIf_ok h).2.symm⟩
  case stopAdvertisement => exact ⟨.stopAdvertisement, (acceptIf_ok h).2.symm⟩
  case stop => exact ⟨.stop, (acceptIf_ok h).2.symm⟩

theorem decodeFrame_ok {f0 f1 f2 f3 f4 f5 f6 f7 f8 f9 : Byte} {i : Instr}
    (h : decodeFrame f0 f1 f2 f3 f4 f5 f6 f7 f8 f9 = .ok i) :
    f0 = 0x7E ∧ f1 = 0xFF ∧ f2 = 0x06 ∧ f4 = 0x00 ∧ f9 = 0xEF ∧ checksumHolds f1 f2 f3 f4 f5 f6 f7 f8 = true ∧
      decodeBody f3 f5 f6 = .ok i := by
  unfold decodeFrame at h
  repeat' split at h
  all_goals simp_all

/-- The decoder reads one byte as a received byte, ten bytes as the frame of a Command, and nothing else. -/
theorem decode_ok_cases {bytes : List Byte} {i : Instr} (h : decode bytes = .ok i) :
    (∃ b, bytes = [b] ∧ i = decodeRxByte b) ∨ (bytes.length = 10 ∧ ∃ c : Command, i = c.instr) := by
  unfold decode at h
  split at h
  · exact .inl ⟨_, rfl, by simpa using h.symm⟩
  · exact .inr ⟨rfl, by
      obtain ⟨row, -, hr⟩ := decodeBody_row (decodeFrame_ok h).2.2.2.2.2.2
      exact row.read_command hr⟩
  · cases h

end Sys2Proof
end

