-- ==== Sys2Proof/Laws/State.lean ====
section
/-! SUPPORT. One lemma per field per update of the state, each true by rfl. -/

namespace Sys2Proof.Machine

variable (s : State)

/-! ### report -/

@[simp] theorem State.report_buf (r : Result) : (s.report r).buf = s.buf := rfl
@[simp] theorem State.report_cursor (r : Result) : (s.report r).cursor = s.cursor := rfl
@[simp] theorem State.report_txframe (r : Result) : (s.report r).txframe = s.txframe := rfl
@[simp] theorem State.report_txidx (r : Result) : (s.report r).txidx = s.txidx := rfl
@[simp] theorem State.report_txActive (r : Result) : (s.report r).txActive = s.txActive := rfl
@[simp] theorem State.report_calls (r : Result) : (s.report r).calls = s.calls := rfl
@[simp] theorem State.report_writeAnswers (r : Result) : (s.report r).writeAnswers = s.writeAnswers := rfl
@[simp] theorem State.report_readAnswers (r : Result) : (s.report r).readAnswers = s.readAnswers := rfl
@[simp] theorem State.report_writes (r : Result) : (s.report r).writes = s.writes := rfl
@[simp] theorem State.report_consumed (r : Result) : (s.report r).consumed = s.consumed := rfl
@[simp] theorem State.report_outcomes (r : Result) : (s.report r).outcomes = s.outcomes ++ [r] := rfl

/-! ### consume -/

@[simp] theorem State.consume_buf (b : Byte) : (s.consume b).buf = s.buf := rfl
@[simp] theorem State.consume_cursor (b : Byte) : (s.consume b).cursor = s.cursor := rfl
@[simp] theorem State.consume_txframe (b : Byte) : (s.consume b).txframe = s.txframe := rfl
@[simp] theorem State.consume_txidx (b : Byte) : (s.consume b).txidx = s.txidx := rfl
@[simp] theorem State.consume_txActive (b : Byte) : (s.consume b).txActive = s.txActive := rfl
@[simp] theorem State.consume_calls (b : Byte) : (s.consume b).calls = s.calls := rfl
@[simp] theorem State.consume_writeAnswers (b : Byte) : (s.consume b).writeAnswers = s.writeAnswers := rfl
@[simp] theorem State.consume_readAnswers (b : Byte) : (s.consume b).readAnswers = s.readAnswers := rfl
@[simp] theorem State.consume_writes (b : Byte) : (s.consume b).writes = s.writes := rfl
@[simp] theorem State.consume_consumed (b : Byte) : (s.consume b).consumed = s.consumed ++ [b] := rfl
@[simp] theorem State.consume_outcomes (b : Byte) : (s.consume b).outcomes = s.outcomes := rfl

/-! ### setRx -/

@[simp] theorem State.setRx_buf (f : Frame) (c : Fin 11) : (s.setRx f c).buf = f := rfl
@[simp] theorem State.setRx_cursor (f : Frame) (c : Fin 11) : (s.setRx f c).cursor = c := rfl
@[simp] theorem State.setRx_txframe (f : Frame) (c : Fin 11) : (s.setRx f c).txframe = s.txframe := rfl
@[simp] theorem State.setRx_txidx (f : Frame) (c : Fin 11) : (s.setRx f c).txidx = s.txidx := rfl
@[simp] theorem State.setRx_txActive (f : Frame) (c : Fin 11) : (s.setRx f c).txActive = s.txActive := rfl
@[simp] theorem State.setRx_calls (f : Frame) (c : Fin 11) : (s.setRx f c).calls = s.calls := rfl
@[simp] theorem State.setRx_writeAnswers (f : Frame) (c : Fin 11) : (s.setRx f c).writeAnswers = s.writeAnswers := rfl
@[simp] theorem State.setRx_readAnswers (f : Frame) (c : Fin 11) : (s.setRx f c).readAnswers = s.readAnswers := rfl
@[simp] theorem State.setRx_writes (f : Frame) (c : Fin 11) : (s.setRx f c).writes = s.writes := rfl
@[simp] theorem State.setRx_consumed (f : Frame) (c : Fin 11) : (s.setRx f c).consumed = s.consumed := rfl
@[simp] theorem State.setRx_outcomes (f : Frame) (c : Fin 11) : (s.setRx f c).outcomes = s.outcomes := rfl

/-! ### setTx -/

@[simp] theorem State.setTx_buf (f : Frame) (i : Fin 11) (a : Bool) : (s.setTx f i a).buf = s.buf := rfl
@[simp] theorem State.setTx_cursor (f : Frame) (i : Fin 11) (a : Bool) : (s.setTx f i a).cursor = s.cursor := rfl
@[simp] theorem State.setTx_txframe (f : Frame) (i : Fin 11) (a : Bool) : (s.setTx f i a).txframe = f := rfl
@[simp] theorem State.setTx_txidx (f : Frame) (i : Fin 11) (a : Bool) : (s.setTx f i a).txidx = i := rfl
@[simp] theorem State.setTx_txActive (f : Frame) (i : Fin 11) (a : Bool) : (s.setTx f i a).txActive = a := rfl
@[simp] theorem State.setTx_calls (f : Frame) (i : Fin 11) (a : Bool) : (s.setTx f i a).calls = s.calls := rfl
@[simp] theorem State.setTx_writeAnswers (f : Frame) (i : Fin 11) (a : Bool) : (s.setTx f i a).writeAnswers = s.writeAnswers := rfl
@[simp] theorem State.setTx_readAnswers (f : Frame) (i : Fin 11) (a : Bool) : (s.setTx f i a).readAnswers = s.readAnswers := rfl
@[simp] theorem State.setTx_writes (f : Frame) (i : Fin 11) (a : Bool) : (s.setTx f i a).writes = s.writes := rfl
@[simp] theorem State.setTx_consumed (f : Frame) (i : Fin 11) (a : Bool) : (s.setTx f i a).consumed = s.consumed := rfl
@[simp] theorem State.setTx_outcomes (f : Frame) (i : Fin 11) (a : Bool) : (s.setTx f i a).outcomes = s.outcomes := rfl

/-! ### logWrite -/

@[simp] theorem State.logWrite_buf (b : Byte) (a : WriteAnswer) : (s.logWrite b a).buf = s.buf := rfl
@[simp] theorem State.logWrite_cursor (b : Byte) (a : WriteAnswer) : (s.logWrite b a).cursor = s.cursor := rfl
@[simp] theorem State.logWrite_txframe (b : Byte) (a : WriteAnswer) : (s.logWrite b a).txframe = s.txframe := rfl
@[simp] theorem State.logWrite_txidx (b : Byte) (a : WriteAnswer) : (s.logWrite b a).txidx = s.txidx := rfl
@[simp] theorem State.logWrite_txActive (b : Byte) (a : WriteAnswer) : (s.logWrite b a).txActive = s.txActive := rfl
@[simp] theorem State.logWrite_calls (b : Byte) (a : WriteAnswer) : (s.logWrite b a).calls = s.calls := rfl
@[simp] theorem State.logWrite_writeAnswers (b : Byte) (a : WriteAnswer) : (s.logWrite b a).writeAnswers = s.writeAnswers := rfl
@[simp] theorem State.logWrite_readAnswers (b : Byte) (a : WriteAnswer) : (s.logWrite b a).readAnswers = s.readAnswers := rfl
@[simp] theorem State.logWrite_writes (b : Byte) (a : WriteAnswer) : (s.logWrite b a).writes = s.writes ++ [(b, a)] := rfl
@[simp] theorem State.logWrite_consumed (b : Byte) (a : WriteAnswer) : (s.logWrite b a).consumed = s.consumed := rfl
@[simp] theorem State.logWrite_outcomes (b : Byte) (a : WriteAnswer) : (s.logWrite b a).outcomes = s.outcomes := rfl

/-! ### setWriteAnswers -/

@[simp] theorem State.setWriteAnswers_buf (l : List (Option WriteAnswer)) : (s.setWriteAnswers l).buf = s.buf := rfl
@[simp] theorem State.setWriteAnswers_cursor (l : List (Option WriteAnswer)) : (s.setWriteAnswers l).cursor = s.cursor := rfl
@[simp] theorem State.setWriteAnswers_txframe (l : List (Option WriteAnswer)) : (s.setWriteAnswers l).txframe = s.txframe := rfl
@[simp] theorem State.setWriteAnswers_txidx (l : List (Option WriteAnswer)) : (s.setWriteAnswers l).txidx = s.txidx := rfl
@[simp] theorem State.setWriteAnswers_txActive (l : List (Option WriteAnswer)) : (s.setWriteAnswers l).txActive = s.txActive := rfl
@[simp] theorem State.setWriteAnswers_calls (l : List (Option WriteAnswer)) : (s.setWriteAnswers l).calls = s.calls := rfl
@[simp] theorem State.setWriteAnswers_writeAnswers (l : List (Option WriteAnswer)) : (s.setWriteAnswers l).writeAnswers = l := rfl
@[simp] theorem State.setWriteAnswers_readAnswers (l : List (Option WriteAnswer)) : (s.setWriteAnswers l).readAnswers = s.readAnswers := rfl
@[simp] theorem State.setWriteAnswers_writes (l : List (Option WriteAnswer)) : (s.setWriteAnswers l).writes = s.writes := rfl
@[simp] theorem State.setWriteAnswers_consumed (l : List (Option WriteAnswer)) : (s.setWriteAnswers l).consumed = s.consumed := rfl
@[simp] theorem State.setWriteAnswers_outcomes (l : List (Option WriteAnswer)) : (s.setWriteAnswers l).outcomes = s.outcomes := rfl

/-! ### setReadAnswers -/

@[simp] theorem State.setReadAnswers_buf (l : List ReadAnswer) : (s.setReadAnswers l).buf = s.buf := rfl
@[simp] theorem State.setReadAnswers_cursor (l : List ReadAnswer) : (s.setReadAnswers l).cursor = s.cursor := rfl
@[simp] theorem State.setReadAnswers_txframe (l : List ReadAnswer) : (s.setReadAnswers l).txframe = s.txframe := rfl
@[simp] theorem State.setReadAnswers_txidx (l : List ReadAnswer) : (s.setReadAnswers l).txidx = s.txidx := rfl
@[simp] theorem State.setReadAnswers_txActive (l : List ReadAnswer) : (s.setReadAnswers l).txActive = s.txActive := rfl
@[simp] theorem State.setReadAnswers_calls (l : List ReadAnswer) : (s.setReadAnswers l).calls = s.calls := rfl
@[simp] theorem State.setReadAnswers_writeAnswers (l : List ReadAnswer) : (s.setReadAnswers l).writeAnswers = s.writeAnswers := rfl
@[simp] theorem State.setReadAnswers_readAnswers (l : List ReadAnswer) : (s.setReadAnswers l).readAnswers = l := rfl
@[simp] theorem State.setReadAnswers_writes (l : List ReadAnswer) : (s.setReadAnswers l).writes = s.writes := rfl
@[simp] theorem State.setReadAnswers_consumed (l : List ReadAnswer) : (s.setReadAnswers l).consumed = s.consumed := rfl
@[simp] theorem State.setReadAnswers_outcomes (l : List ReadAnswer) : (s.setReadAnswers l).outcomes = s.outcomes := rfl

/-! ### setCalls -/

@[simp] theorem State.setCalls_buf (l : List Call) : (s.setCalls l).buf = s.buf := rfl
@[simp] theorem State.setCalls_cursor (l : List Call) : (s.setCalls l).cursor = s.cursor := rfl
@[simp] theorem State.setCalls_txframe (l : List Call) : (s.setCalls l).txframe = s.txframe := rfl
@[simp] theorem State.setCalls_txidx (l : List Call) : (s.setCalls l).txidx = s.txidx := rfl
@[simp] theorem State.setCalls_txActive (l : List Call) : (s.setCalls l).txActive = s.txActive := rfl
@[simp] theorem State.setCalls_calls (l : List Call) : (s.setCalls l).calls = l := rfl
@[simp] theorem State.setCalls_writeAnswers (l : List Call) : (s.setCalls l).writeAnswers = s.writeAnswers := rfl
@[simp] theorem State.setCalls_readAnswers (l : List Call) : (s.setCalls l).readAnswers = s.readAnswers := rfl
@[simp] theorem State.setCalls_writes (l : List Call) : (s.setCalls l).writes = s.writes := rfl
@[simp] theorem State.setCalls_consumed (l : List Call) : (s.setCalls l).consumed = s.consumed := rfl
@[simp] theorem State.setCalls_outcomes (l : List Call) : (s.setCalls l).outcomes = s.outcomes := rfl

/-! ### create -/

@[simp] theorem State.create_buf : (s.create).buf = State.reset.buf := rfl
@[simp] theorem State.create_cursor : (s.create).cursor = 0 := rfl
@[simp] theorem State.create_txframe : (s.create).txframe = State.reset.txframe := rfl
@[simp] theorem State.create_txidx : (s.create).txidx = 0 := rfl
@[simp] theorem State.create_txActive : (s.create).txActive = false := rfl
@[simp] theorem State.create_calls : (s.create).calls = s.calls := rfl
@[simp] theorem State.create_writeAnswers : (s.create).writeAnswers = s.writeAnswers := rfl
@[simp] theorem State.create_readAnswers : (s.create).readAnswers = s.readAnswers := rfl
@[simp] theorem State.create_writes : (s.create).writes = s.writes := rfl
@[simp] theorem State.create_consumed : (s.create).consumed = s.consumed := rfl
@[simp] theorem State.create_outcomes : (s.create).outcomes = s.outcomes := rfl

/-! ### The state after reset -/

@[simp] theorem State.reset_cursor : State.reset.cursor = 0 := rfl
@[simp] theorem State.reset_txActive : State.reset.txActive = false := rfl
@[simp] theorem State.reset_calls : State.reset.calls = [] := rfl
@[simp] theorem State.reset_writeAnswers : State.reset.writeAnswers = [] := rfl
@[simp] theorem State.reset_readAnswers : State.reset.readAnswers = [] := rfl
@[simp] theorem State.reset_writes : State.reset.writes = [] := rfl
@[simp] theorem State.reset_consumed : State.reset.consumed = [] := rfl
@[simp] theorem State.reset_outcomes : State.reset.outcomes = [] := rfl

/-- Every register of a fresh buffer is BUF_CLEAR (R33). -/
@[simp] theorem State.reset_buf_get (i : Nat) (h : i < 10) : State.reset.buf[i] = 0x00 := by
  simp [State.reset, config]

end Sys2Proof.Machine
end

