-- ==== Sys2Proof/Laws/Ops.lean ====
section
/-! SUPPORT. What each shared operation can do, said once: the frame builder, the transmitter's guard and loop, the three
receptions. -/

namespace Sys2Proof.Machine

/-! ### Building a frame (R150) -/

/-- The frame builder gives the layout of R81 with the checksum of R93. -/
theorem buildFrame_eq_wireFrame (id : Byte) (p : ParamForm) : buildFrame id p = wireFrame id p.first p.second := by
  have h₁ := id.isLt
  have h₂ := p.first.isLt
  have h₃ := p.second.isLt
  have hc : (cksum #v[0x7E, 0xFF, 0x06, id, 0x00, p.first, p.second, 0x00, 0x00, 0xEF]).toNat =
      0xFEFB - id.toNat - p.first.toNat - p.second.toNat := by
    rw [cksum_toNat]
    simp
    omega
  have hhi : hi8 (cksum #v[0x7E, 0xFF, 0x06, id, 0x00, p.first, p.second, 0x00, 0x00, 0xEF]) =
      BitVec.ofNat 8 ((0xFEFB - id.toNat - p.first.toNat - p.second.toNat) / 256) := by
    apply BitVec.eq_of_toNat_eq
    rw [hi8_toNat, hc, BitVec.toNat_ofNat]
    omega
  have hlo : lo8 (cksum #v[0x7E, 0xFF, 0x06, id, 0x00, p.first, p.second, 0x00, 0x00, 0xEF]) =
      BitVec.ofNat 8 ((0xFEFB - id.toNat - p.first.toNat - p.second.toNat) % 256) := by
    apply BitVec.eq_of_toNat_eq
    rw [lo8_toNat, hc, BitVec.toNat_ofNat]
    omega
  simp only [buildFrame, config_startMarker, config_version, config_length, config_feedbackNone, config_endMarker]
  rw [hhi, hlo]
  rfl

theorem encodeCommand_eq_wireFrame (c : Command) :
    encodeCommand c = wireFrame c.id c.params.first c.params.second := buildFrame_eq_wireFrame _ _

theorem encodeCommand_clamped (c : Command) : encodeCommand c.clamped = encodeCommand c := by
  simp [encodeCommand]

/-! ### The transmitter's guard (R62) -/

theorem onTransmitter_idle {s : State} (h : s.txActive = false) (k : State → State) :
    onTransmitter s k = .next (k s) := by simp [onTransmitter, h]

theorem onTransmitter_busy {s : State} (h : s.txActive = true) (k : State → State) :
    onTransmitter s k = .refused .overlappingOperation := by simp [onTransmitter, h]

/-- If the guard lets an operation through, no `transmit` was in progress and the operation ran. -/
theorem onTransmitter_next {s t : State} {k : State → State} (h : onTransmitter s k = .next t) :
    s.txActive = false ∧ k s = t := by
  unfold onTransmitter at h
  split at h
  · cases h
  · rename_i hi; exact ⟨by simpa using hi, by simpa using h⟩

theorem encodeOp_some {s : State} {v : Message} {F : Frame} (h : s.txActive = false) (hF : encodeMessage v = some F) :
    encodeOp v s = .next (s.report (.frame F)) := by
  simp [encodeOp, onTransmitter_idle h, hF]

theorem encodeOp_none {s : State} {v : Message} (h : s.txActive = false) (hF : encodeMessage v = none) :
    encodeOp v s = .next (s.report .notSupported) := by
  simp [encodeOp, onTransmitter_idle h, hF]

/-- `encode` changes the record of outcomes and nothing else. -/
theorem encodeOp_next {s t : State} {v : Message} (h : encodeOp v s = .next t) :
    s.txActive = false ∧ ∃ r, t = s.report r ∧ (∀ F, encodeMessage v = some F → r = .frame F) ∧
      (encodeMessage v = none → r = .notSupported) := by
  obtain ⟨hi, hk⟩ := onTransmitter_next h
  refine ⟨hi, ?_⟩
  cases hv : encodeMessage v with
  | some F => exact ⟨_, by simpa [hv] using hk.symm, by simp, by simp⟩
  | none => exact ⟨_, by simpa [hv] using hk.symm, by simp, by simp⟩

/-- The 25 command and query rows all are `encode` of their message. -/
theorem exec_message (v : Message) (s : State) : exec v.instr s = encodeOp v s := by
  cases v with
  | command c => cases c <;> rfl
  | query q => cases q <;> rfl

@[simp] theorem exec_transmit (F : Frame) (s : State) : exec (.transmit F) s = onTransmitter s (transmitOp F) := rfl

@[simp] theorem exec_send (v : Message) (s : State) : exec (.send v) s = onTransmitter s (sendOp v) := rfl

/-! ### The transmit loop (R210 to R212) -/

section Loop

variable (s : State)

theorem txLoop_done (as : List (Option WriteAnswer)) (h : ¬ s.txidx.val < 10) :
    txLoop as s = ((s.setTx s.txframe s.txidx false).setWriteAnswers as).report .ok := by
  unfold txLoop; simp [h]

theorem txLoop_nil (h : s.txidx.val < 10) : txLoop [] s = s.setWriteAnswers [] := by
  unfold txLoop; simp [h]

theorem txLoop_wait (rest : List (Option WriteAnswer)) (h : s.txidx.val < 10) :
    txLoop (none :: rest) s = s.setWriteAnswers (none :: rest) := by
  unfold txLoop; simp [h]

theorem txLoop_rejected (rest : List (Option WriteAnswer)) (h : s.txidx.val < 10) :
    txLoop (some .rejected :: rest) s =
      (((s.logWrite s.txframe[s.txidx.val] .rejected).setTx s.txframe s.txidx false).setWriteAnswers rest).report
        .writeFailure := by
  unfold txLoop; simp [h]

theorem txLoop_accepted (rest : List (Option WriteAnswer)) (h : s.txidx.val < 10) :
    txLoop (some .accepted :: rest) s =
      txLoop rest ((s.logWrite s.txframe[s.txidx.val] .accepted).setTx s.txframe ⟨s.txidx.val + 1, by omega⟩
        s.txActive) := by
  conv_lhs => unfold txLoop
  simp [h]

end Loop

/-- A property of states that every turn of the loop keeps, the loop keeps. -/
theorem txLoop_induct {P : State → Prop} (as : List (Option WriteAnswer)) (s : State) (h₀ : P s)
    (hacc : ∀ (t : State) (h : t.txidx.val < 10), P t →
      P ((t.logWrite t.txframe[t.txidx.val] .accepted).setTx t.txframe ⟨t.txidx.val + 1, by omega⟩ t.txActive))
    (hrej : ∀ (t : State) (rest : List (Option WriteAnswer)) (h : t.txidx.val < 10), P t →
      P ((((t.logWrite t.txframe[t.txidx.val] .rejected).setTx t.txframe t.txidx false).setWriteAnswers rest).report
        .writeFailure))
    (hwait : ∀ (t : State) (rest : List (Option WriteAnswer)), t.txidx.val < 10 → P t → P (t.setWriteAnswers rest))
    (hdone : ∀ (t : State) (rest : List (Option WriteAnswer)), ¬ t.txidx.val < 10 → P t →
      P (((t.setTx t.txframe t.txidx false).setWriteAnswers rest).report .ok)) :
    P (txLoop as s) := by
  induction as generalizing s with
  | nil =>
    by_cases h : s.txidx.val < 10
    · rw [txLoop_nil s h]; exact hwait _ _ h h₀
    · rw [txLoop_done s _ h]; exact hdone _ _ h h₀
  | cons a rest ih =>
    by_cases h : s.txidx.val < 10
    · match a with
      | some .accepted => rw [txLoop_accepted s rest h]; exact ih _ (hacc _ h h₀)
      | some .rejected => rw [txLoop_rejected s rest h]; exact hrej _ _ h h₀
      | none => rw [txLoop_wait s rest h]; exact hwait _ _ h h₀
    · rw [txLoop_done s _ h]; exact hdone _ _ h h₀

/-- The loop runs on the answers it is given, not on those the state holds. -/
theorem txLoop_setWriteAnswers (as l : List (Option WriteAnswer)) (s : State) :
    txLoop as (s.setWriteAnswers l) = txLoop as s := by
  induction as generalizing s with
  | nil =>
    by_cases h : s.txidx.val < 10
    · rw [txLoop_nil s h, txLoop_nil _ (by simpa using h)]; rfl
    · rw [txLoop_done s _ h, txLoop_done _ _ (by simpa using h)]; rfl
  | cons a rest ih =>
    by_cases h : s.txidx.val < 10
    · match a with
      | some .accepted =>
        rw [txLoop_accepted s rest h, txLoop_accepted _ rest (by simpa using h)]
        exact ih ((s.logWrite s.txframe[s.txidx.val] .accepted).setTx s.txframe ⟨s.txidx.val + 1, by omega⟩ s.txActive)
      | some .rejected => rw [txLoop_rejected s rest h, txLoop_rejected _ rest (by simpa using h)]; rfl
      | none => rw [txLoop_wait s rest h, txLoop_wait _ rest (by simpa using h)]; rfl
    · rw [txLoop_done s _ h, txLoop_done _ _ (by simpa using h)]; rfl

/-- The loop leaves the reassembler, the caller, the read side and `txframe` alone. -/
theorem txLoop_frame (as : List (Option WriteAnswer)) (s : State) :
    (txLoop as s).buf = s.buf ∧ (txLoop as s).cursor = s.cursor ∧ (txLoop as s).txframe = s.txframe ∧
      (txLoop as s).calls = s.calls ∧ (txLoop as s).readAnswers = s.readAnswers ∧
      (txLoop as s).consumed = s.consumed :=
  txLoop_induct (P := fun t => t.buf = s.buf ∧ t.cursor = s.cursor ∧ t.txframe = s.txframe ∧ t.calls = s.calls ∧
    t.readAnswers = s.readAnswers ∧ t.consumed = s.consumed) as s ⟨rfl, rfl, rfl, rfl, rfl, rfl⟩
    (by simp +contextual) (by simp +contextual) (by simp +contextual) (by simp +contextual)

/-- The loop appends to the record: writes, and at most one outcome. -/
theorem txLoop_record (as : List (Option WriteAnswer)) (s : State) :
    s.writes <+: (txLoop as s).writes ∧
      ((txLoop as s).outcomes = s.outcomes ∨ (txLoop as s).outcomes = s.outcomes ++ [.ok] ∨
        (txLoop as s).outcomes = s.outcomes ++ [.writeFailure]) := by
  induction as generalizing s with
  | nil =>
    by_cases h : s.txidx.val < 10
    · simp [txLoop_nil s h]
    · simp [txLoop_done s _ h]
  | cons a rest ih =>
    by_cases h : s.txidx.val < 10
    · match a with
      | some .accepted =>
        rw [txLoop_accepted s rest h]
        refine ⟨List.IsPrefix.trans ?_ (ih _).1, (ih _).2⟩
        simp
      | some .rejected => simp [txLoop_rejected s rest h]
      | none => simp [txLoop_wait s rest h]
    · simp [txLoop_done s _ h]

/-- `k` acceptances advance `txidx` by `k` and put the next `k` bytes of `txframe` on record. -/
theorem txLoop_accepts (k : Nat) (rest : List (Option WriteAnswer)) (s : State) (h : s.txidx.val + k ≤ 10) :
    txLoop (List.replicate k (some .accepted) ++ rest) s =
      txLoop rest { s with
        txidx := ⟨s.txidx.val + k, by omega⟩,
        writes := s.writes ++ ((s.txframe.toList.drop s.txidx.val).take k).map fun b => (b, .accepted) } := by
  induction k generalizing s with
  | zero => simp
  | succ k ih =>
    have hlt : s.txidx.val < 10 := by omega
    rw [List.replicate_succ, List.cons_append, txLoop_accepted s _ hlt, ih _ (by simp; omega)]
    congr 1
    have hd : s.txframe.toList.drop s.txidx.val =
        s.txframe[s.txidx.val] :: s.txframe.toList.drop (s.txidx.val + 1) := by
      rw [List.drop_eq_getElem_cons (by simpa using hlt)]
      simp
    simp only [State.setTx, State.logWrite, hd, List.take_succ_cons, List.map_cons, List.append_assoc,
      List.cons_append, List.nil_append, State.mk.injEq, true_and, Fin.mk.injEq, and_true]
    omega

/-! ### Receptions (R234 to R238) -/

/-- What a received byte does, whatever its class: the row `rx_step <- Byte(b)` is one of the three receptions. -/
theorem exec_rxByte (b : Byte) (s : State) :
    exec (decodeRxByte b) s =
      .next (if b = 0x7E then rxStartOp s else if b = 0xEF then rxEndOp s else rxDataOp b s) := by
  unfold decodeRxByte
  split
  · rfl
  · split
    · rfl
    · show execRxData b s = _
      simp_all [execRxData]

/-- The row of a transport answer always completes. -/
theorem exec_readAnswer (a : ReadAnswer) (s : State) : ∃ t, exec a.instr s = .next t := by
  cases a with
  | byte b => exact ⟨_, exec_rxByte b s⟩
  | noData => exact ⟨_, rfl⟩
  | readError => exact ⟨_, rfl⟩

/-- A reception touches only the reassembler's registers and the record of outcomes and of bytes taken. -/
structure RxFrame (s t : State) : Prop where
  txframe : t.txframe = s.txframe
  txidx : t.txidx = s.txidx
  txActive : t.txActive = s.txActive
  calls : t.calls = s.calls
  writeAnswers : t.writeAnswers = s.writeAnswers
  readAnswers : t.readAnswers = s.readAnswers
  writes : t.writes = s.writes

theorem rxStartOp_frame (s : State) : RxFrame s (rxStartOp s) := ⟨rfl, rfl, rfl, rfl, rfl, rfl, rfl⟩

theorem rxEndOp_frame (s : State) : RxFrame s (rxEndOp s) := by
  unfold rxEndOp
  constructor <;> (simp only []; split <;> rfl)

theorem rxDataOp_frame (b : Byte) (s : State) : RxFrame s (rxDataOp b s) := by
  unfold rxDataOp
  constructor <;> (simp only []; split <;> rfl)

theorem exec_readAnswer_frame {a : ReadAnswer} {s t : State} (h : exec a.instr s = .next t) : RxFrame s t := by
  cases a with
  | byte b =>
    rw [ReadAnswer.instr, exec_rxByte] at h
    cases h
    split
    · exact rxStartOp_frame s
    · split
      · exact rxEndOp_frame s
      · exact rxDataOp_frame b s
  | noData => cases h; exact ⟨rfl, rfl, rfl, rfl, rfl, rfl, rfl⟩
  | readError => cases h; exact ⟨rfl, rfl, rfl, rfl, rfl, rfl, rfl⟩

/-- A start marker, written out (R234). -/
theorem rxStartOp_eq (s : State) :
    rxStartOp s = { s with
      buf := #v[0x7E, 0x00, 0x00, 0x00, 0x00, 0x00, 0x00, 0x00, 0x00, 0x00], cursor := 1,
      consumed := s.consumed ++ [0x7E], outcomes := s.outcomes ++ [.incomplete] } := rfl

/-- An end marker with room (R235). -/
theorem rxEndOp_room {s : State} (h : s.cursor.val < 10) :
    rxEndOp s = { s with
      buf := s.buf.set s.cursor.val 0xEF, cursor := ⟨s.cursor.val + 1, by omega⟩,
      consumed := s.consumed ++ [0xEF], outcomes := s.outcomes ++ [.complete (s.buf.set s.cursor.val 0xEF)] } := by
  simp [rxEndOp, h, State.setRx, State.report, State.consume]

/-- An end marker without room (R236). -/
theorem rxEndOp_full {s : State} (h : ¬ s.cursor.val < 10) :
    rxEndOp s = { s with consumed := s.consumed ++ [0xEF], outcomes := s.outcomes ++ [.overrun] } := by
  simp [rxEndOp, h, State.report, State.consume]

/-- A data byte with room (R237). -/
theorem rxDataOp_room {s : State} (b : Byte) (h : s.cursor.val < 10) :
    rxDataOp b s = { s with
      buf := s.buf.set s.cursor.val b, cursor := ⟨s.cursor.val + 1, by omega⟩,
      consumed := s.consumed ++ [b], outcomes := s.outcomes ++ [.incomplete] } := by
  simp [rxDataOp, h, State.setRx, State.report, State.consume]

/-- A data byte without room (R238). -/
theorem rxDataOp_full {s : State} (b : Byte) (h : ¬ s.cursor.val < 10) :
    rxDataOp b s = { s with consumed := s.consumed ++ [b], outcomes := s.outcomes ++ [.incomplete] } := by
  simp [rxDataOp, h, State.report, State.consume]

/-! ### What the caller's requests become -/

/-- Accepting a request runs an instruction, or is done at once with at most one outcome or a creation, or names no row. -/
theorem acceptCall_cases (c : Call) (s : State) :
    (∃ v : Message, acceptCall c s = .run v.instr s ∧ c.agent = some .transmitter) ∨
    (∃ F, acceptCall c s = .run (.transmit F) s ∧ c.agent = some .transmitter) ∨
    (∃ v, acceptCall c s = .run (.send v) s ∧ c.agent = some .transmitter) ∨
    (∃ a : ReadAnswer, ∃ rs, acceptCall c s = .run a.instr (s.setReadAnswers rs) ∧ c.agent = some .reassembler) ∨
    (∃ r, acceptCall c s = .done (s.report r)) ∨ (c = .create ∧ acceptCall c s = .done s.create) ∨
    (∃ bytes e, c = .pattern bytes ∧ decode bytes = .error e ∧ acceptCall c s = .undecodable e) ∨
    (∃ bytes i, c = .pattern bytes ∧ decode bytes = .ok i ∧ acceptCall c s = .run i s) := by
  cases c with
  | encode v =>
    cases hv : v.resolve with
    | some m => exact .inl ⟨m, by simp [acceptCall, PortMessage.run, hv], rfl⟩
    | none => exact .inr (.inr (.inr (.inr (.inl ⟨_, by simp only [acceptCall, PortMessage.run, hv]; rfl⟩))))
  | transmit F => exact .inr (.inl ⟨F, rfl, rfl⟩)
  | send v =>
    cases hv : v.resolve with
    | some m => exact .inr (.inr (.inl ⟨m, by simp [acceptCall, PortMessage.run, hv], rfl⟩))
    | none => exact .inr (.inr (.inr (.inr (.inl ⟨_, by simp only [acceptCall, PortMessage.run, hv]; rfl⟩))))
  | rxStep =>
    refine .inr (.inr (.inr (.inl ?_)))
    unfold acceptCall transportRead
    cases hr : s.readAnswers with
    | nil => exact ⟨.noData, [], by simp [State.setReadAnswers, ← hr], rfl⟩
    | cons a rest => exact ⟨a, rest, rfl, rfl⟩
  | convert k b =>
    refine .inr (.inr (.inr (.inr (.inl ?_))))
    cases hk : k.convert b with
    | some m => exact ⟨.converted m, by simp [acceptCall, hk]⟩
    | none => exact ⟨.conversionFailure, by simp [acceptCall, hk]⟩
  | create => exact .inr (.inr (.inr (.inr (.inr (.inl ⟨rfl, rfl⟩)))))
  | pattern bytes =>
    cases hd : decode bytes with
    | error e => exact .inr (.inr (.inr (.inr (.inr (.inr (.inl ⟨bytes, e, rfl, hd, by simp [acceptCall, hd]⟩))))))
    | ok i => exact .inr (.inr (.inr (.inr (.inr (.inr (.inr ⟨bytes, i, rfl, hd, by simp [acceptCall, hd]⟩))))))

end Sys2Proof.Machine
end

