-- ==== Sys2Proof/Laws/Step.lean ====
section
/-! SUPPORT. What a step can do, said once: the inversion of `step`. -/

namespace Sys2Proof.Machine

/-! ### The inversion of a step -/

/-- `s₀` is `s` with requests and answers taken: the registers and the record stand. -/
structure Taken (s s₀ : State) : Prop where
  buf : s₀.buf = s.buf
  cursor : s₀.cursor = s.cursor
  txframe : s₀.txframe = s.txframe
  txidx : s₀.txidx = s.txidx
  txActive : s₀.txActive = s.txActive
  writes : s₀.writes = s.writes
  consumed : s₀.consumed = s.consumed
  outcomes : s₀.outcomes = s.outcomes

theorem Taken.refl (s : State) : Taken s s := ⟨rfl, rfl, rfl, rfl, rfl, rfl, rfl, rfl⟩

/-- What accepting a request leads to, with the step's part done. -/
inductive Ran (s : State) : Move → Prop where
  | wait {s₀} (h : Taken s s₀) : Ran s (.wait s₀)
  | resume (h : s.txActive = true) : Ran s .resume
  | message {s₀} (h : Taken s s₀) (hi : s.txActive = false) (v : Message) : Ran s (.run v.instr s₀)
  | transmit {s₀} (h : Taken s s₀) (hi : s.txActive = false) (F : Frame) : Ran s (.run (.transmit F) s₀)
  | send {s₀} (h : Taken s s₀) (hi : s.txActive = false) (v : Message) : Ran s (.run (.send v) s₀)
  | rx {s₀} (h : Taken s s₀) (a : ReadAnswer) : Ran s (.run a.instr s₀)
  | report {s₀} (h : Taken s s₀) (r : Result) : Ran s (.done (s₀.report r))
  | create {s₀} (h : Taken s s₀) (hc : s.calls.head? = some .create) : Ran s (.done s₀.create)
  | undecodable {bytes rest e} (hc : s.calls = .pattern bytes :: rest) (hd : decode bytes = .error e) :
      Ran s (.undecodable e)

/-- Accepting the head request, whether nothing is being transmitted or the request is not the transmitter's. -/
theorem acceptCall_ran {s s₁ : State} {c : Call} {rest : List Call} (hc : s.calls = c :: rest) (hs : Taken s s₁)
    (hi : s.txActive = false ∨ c.agent ≠ some .transmitter) : Ran s (acceptCall c s₁) := by
  rcases acceptCall_cases c s₁ with ⟨v, h, ha⟩ | ⟨F, h, ha⟩ | ⟨v, h, ha⟩ | ⟨a, rs, h, ha⟩ | ⟨r, h⟩ | ⟨hc', h⟩ |
    ⟨bytes, e, hb, hd, h⟩ | ⟨bytes, i, hb, hd, h⟩
  · rw [h]; exact .message hs (hi.resolve_right (· ha)) v
  · rw [h]; exact .transmit hs (hi.resolve_right (· ha)) F
  · rw [h]; exact .send hs (hi.resolve_right (· ha)) v
  · rw [h]; exact .rx (s₀ := s₁.setReadAnswers rs) ⟨hs.1, hs.2, hs.3, hs.4, hs.5, hs.6, hs.7, hs.8⟩ a
  · rw [h]; exact .report hs r
  · rw [h]; exact .create hs (by simp [hc, hc'])
  · rw [h]; exact .undecodable (hb ▸ hc) hd
  · rw [h]
    rcases decode_ok_cases hd with ⟨b, rfl, rfl⟩ | ⟨hl, cmd, rfl⟩
    · exact .rx hs (.byte b)
    · refine .message hs (hi.resolve_right fun hne => hne ?_) (.command cmd)
      rw [hb]
      simp [Call.agent, hl]

theorem nextMove_ran (s : State) : Ran s (nextMove s) := by
  have hw (s₁ : State) (h₁ : Taken s s₁) (hcs : s₁.calls = s.calls) : Ran s (turnWhileWaiting s₁) := by
    unfold turnWhileWaiting
    rw [hcs]
    split
    · exact .wait h₁
    · split
      · exact .wait h₁
      · exact acceptCall_ran ‹_› ⟨h₁.1, h₁.2, h₁.3, h₁.4, h₁.5, h₁.6, h₁.7, h₁.8⟩ (.inr ‹_›)
  unfold nextMove
  split
  · split
    · exact .resume ‹_›
    · exact hw _ ⟨rfl, rfl, rfl, rfl, rfl, rfl, rfl, rfl⟩ rfl
    · exact hw s (Taken.refl s) rfl
  · unfold nextCall
    split
    · exact .wait (Taken.refl s)
    · exact acceptCall_ran ‹_› ⟨rfl, rfl, rfl, rfl, rfl, rfl, rfl, rfl⟩ (.inl (by simp_all))

/-- All a step can do. -/
theorem step_next_cases {s t : State} (h : step s = .next t) :
    (∃ s₀, Taken s s₀ ∧ t = s₀) ∨ (s.txActive = true ∧ t = txRun s) ∨
    (∃ s₀, Taken s s₀ ∧ s.txActive = false ∧ ((∃ v : Message, encodeOp v s₀ = .next t) ∨ (∃ F, transmitOp F s₀ = t) ∨
      ∃ v, sendOp v s₀ = t)) ∨
    (∃ s₀ a, Taken s s₀ ∧ exec (ReadAnswer.instr a) s₀ = .next t) ∨
    (∃ s₀ r, Taken s s₀ ∧ t = s₀.report r) ∨
    (∃ s₀, Taken s s₀ ∧ s.calls.head? = some .create ∧ t = s₀.create) := by
  unfold step at h
  have hr := nextMove_ran s
  cases hm : nextMove s <;> rw [hm] at h hr <;> cases hr <;> simp only [Host.Outcome.next.injEq, reduceCtorEq] at h
  case wait.wait h₀ => exact .inl ⟨_, h₀, h.symm⟩
  case resume.resume h₀ => exact .inr (.inl ⟨h₀, h.symm⟩)
  case run.message hi v h₀ =>
    exact .inr (.inr (.inl ⟨_, h₀, hi, .inl ⟨v, by rw [← exec_message]; exact h⟩⟩))
  case run.transmit hi F h₀ =>
    exact .inr (.inr (.inl ⟨_, h₀, hi, .inr (.inl ⟨F, (onTransmitter_next h).2⟩)⟩))
  case run.send hi v h₀ =>
    exact .inr (.inr (.inl ⟨_, h₀, hi, .inr (.inr ⟨v, (onTransmitter_next h).2⟩)⟩))
  case run.rx a h₀ => exact .inr (.inr (.inr (.inl ⟨_, a, h₀, h⟩)))
  case done.report h₀ r => exact .inr (.inr (.inr (.inr (.inl ⟨_, r, h₀, h.symm⟩))))
  case done.create h₀ hc => exact .inr (.inr (.inr (.inr (.inr ⟨_, h₀, hc, h.symm⟩))))

end Sys2Proof.Machine
end

