-- ==== Sys2Proof/Laws/Feed.lean ====
section
/-! SUPPORT. Runs of several steps, and what the reassembler does with a sequence of bytes fed to it. -/

namespace Sys2Proof.Machine

/-! ### Runs -/

theorem steps_succ (k : Nat) {s t : State} (h : step s = .next t) : steps (k + 1) s = steps k t := by
  simp [steps, h]

theorem steps_add (m n : Nat) {s t : State} (h : steps m s = .next t) : steps (m + n) s = steps n t := by
  induction m generalizing s with
  | zero => cases h; simp
  | succ m ih =>
    cases hs : step s with
    | next u => rw [Nat.succ_add, steps_succ _ hs]; exact ih (by rw [← steps_succ m hs]; exact h)
    | fault r => cases r
    | refused r => simp [steps, hs] at h

theorem run_succ_next {M : Host.Core} {k : Nat} {s t : M.State} (h : M.step s = .next t) : M.run (k + 1) s = M.run k t := by
  simp [Host.Core.run, h]

theorem run_succ_refused {M : Host.Core} {k : Nat} {s : M.State} {r : M.Refusal} (h : M.step s = .refused r) :
    M.run (k + 1) s = .refused r := by
  simp [Host.Core.run, h]

/-- `steps` is the host's run of the machine. -/
theorem steps_eq_run (k : Nat) (s : State) : steps k s = Host.Core.run Sys2Proof.core k s := by
  induction k generalizing s with
  | zero => rfl
  | succ k ih =>
    cases hs : step s with
    | next t => exact (steps_succ k hs).trans ((ih t).trans (run_succ_next (M := Sys2Proof.core) hs).symm)
    | fault r => cases r
    | refused r =>
      exact (by simp [steps, hs] : steps (k + 1) s = .refused r).trans
        (run_succ_refused (M := Sys2Proof.core) hs).symm

/-! ### Feeding the reassembler -/

/-- What a received byte does to the state, whatever its class (R230). -/
def rxByteOp (b : Byte) (s : State) : State :=
  if b = 0x7E then rxStartOp s else if b = 0xEF then rxEndOp s else rxDataOp b s

theorem exec_byte (b : Byte) (s : State) : exec (ReadAnswer.byte b).instr s = .next (rxByteOp b s) := exec_rxByte b s

theorem rxByteOp_frame (b : Byte) (s : State) : RxFrame s (rxByteOp b s) := exec_readAnswer_frame (exec_byte b s)

/-- A byte that is not a start marker is stored where there is room, with the outcome of its class. -/
theorem rxByteOp_room {b : Byte} {s : State} (hb : b ≠ 0x7E) (h : s.cursor.val < 10) :
    rxByteOp b s = { s with
      buf := s.buf.set s.cursor.val b, cursor := ⟨s.cursor.val + 1, by omega⟩, consumed := s.consumed ++ [b],
      outcomes := s.outcomes ++ [if b = 0xEF then .complete (s.buf.set s.cursor.val b) else .incomplete] } := by
  unfold rxByteOp
  rw [if_neg hb]
  split
  · subst b; rw [rxEndOp_room h]
  · rw [rxDataOp_room b h]

/-- A byte that is not a start marker changes no register where there is no room. -/
theorem rxByteOp_full {b : Byte} {s : State} (hb : b ≠ 0x7E) (h : ¬ s.cursor.val < 10) :
    rxByteOp b s = { s with
      consumed := s.consumed ++ [b], outcomes := s.outcomes ++ [if b = 0xEF then .overrun else .incomplete] } := by
  unfold rxByteOp
  rw [if_neg hb]
  split
  · subst b; rw [rxEndOp_full h]
  · rw [rxDataOp_full b h]

theorem rxByteOp_start (s : State) : rxByteOp 0x7E s = rxStartOp s := rfl

theorem step_feeding {s : State} (h : s.txActive = false) (a : ReadAnswer) (as : List ReadAnswer) :
    step (feeding s (a :: as)) = exec a.instr (feeding s as) := by
  simp [step, nextMove, feeding, h, nextCall, List.replicate_succ, acceptCall, transportRead, State.setCalls,
    State.setReadAnswers]

theorem rxByteOp_feeding (b : Byte) (s : State) (as : List ReadAnswer) :
    rxByteOp b (feeding s as) = feeding (rxByteOp b s) as := by
  by_cases hb : b = 0x7E
  · subst hb; rfl
  · by_cases h : s.cursor.val < 10
    · rw [rxByteOp_room hb h, rxByteOp_room hb (by exact h)]; rfl
    · rw [rxByteOp_full hb h, rxByteOp_full hb (by exact h)]; rfl

/-- Feeding bytes to an idle machine is the reassembler's fold over them, one step each. -/
theorem steps_feedingBytes (bytes : List Byte) {s : State} (h : s.txActive = false) :
    steps bytes.length (feedingBytes s bytes) = .next (feeding (bytes.foldl (fun t b => rxByteOp b t) s) []) := by
  induction bytes generalizing s with
  | nil => rfl
  | cons b bytes ih =>
    have hs : step (feedingBytes s (b :: bytes)) = .next (feedingBytes (rxByteOp b s) bytes) := by
      rw [feedingBytes, List.map_cons, step_feeding h, exec_byte, rxByteOp_feeding]
      rfl
    rw [List.length_cons, steps_succ _ hs]
    exact ih ((rxByteOp_frame b s).txActive.trans h)

end Sys2Proof.Machine
end

