-- ==== Sys2Proof/Laws/PerInstr.lean ====
section
/-! SUPPORT. The per-instruction family `Pattern`: what the decoder would read back from an instruction's bit pattern has that
same pattern, and reading it back again changes nothing more. -/

namespace Sys2Proof.Laws.Pattern

/-- The canonical form of `i` has the pattern of `i`, and is its own canonical form. -/
def Statement (i : Instr) : Prop := encode i.canonical = encode i ∧ i.canonical.canonical = i.canonical

theorem next : Statement .next := ⟨rfl, rfl⟩
theorem previous : Statement .previous := ⟨rfl, rfl⟩
theorem specifyTrack (t : Half) : Statement (.specifyTrack t) := ⟨rfl, rfl⟩
theorem increaseVolume : Statement .increaseVolume := ⟨rfl, rfl⟩
theorem decreaseVolume : Statement .decreaseVolume := ⟨rfl, rfl⟩
theorem specifyVolume (v : Byte) : Statement (.specifyVolume v) := by
  simp [Statement, Instr.canonical, encode, clamp_idem]
theorem specifyEqualizer (e : Equalizer) : Statement (.specifyEqualizer e) := ⟨rfl, rfl⟩
theorem specifyPlaybackMode (m : PlaybackMode) : Statement (.specifyPlaybackMode m) := ⟨rfl, rfl⟩
theorem standby : Statement .standby := ⟨rfl, rfl⟩
theorem normalWorking : Statement .normalWorking := ⟨rfl, rfl⟩
theorem resetModule : Statement .resetModule := ⟨rfl, rfl⟩
theorem playback : Statement .playback := ⟨rfl, rfl⟩
theorem pause : Statement .pause := ⟨rfl, rfl⟩
theorem specifyFolder (f k : Byte) : Statement (.specifyFolder f k) := by
  simp [Statement, Instr.canonical, encode, clamp_idem]
theorem specifyMp3Track (t : Half) : Statement (.specifyMp3Track t) := by
  simp [Statement, Instr.canonical, encode, clamp_idem]
theorem specifyAdvertisement (t : Half) : Statement (.specifyAdvertisement t) := by
  simp [Statement, Instr.canonical, encode, clamp_idem]
theorem stopAdvertisement : Statement .stopAdvertisement := ⟨rfl, rfl⟩
theorem stop : Statement .stop := ⟨rfl, rfl⟩
theorem queryVolume : Statement .queryVolume := ⟨rfl, rfl⟩
theorem queryStatus : Statement .queryStatus := ⟨rfl, rfl⟩
theorem queryEqualizer : Statement .queryEqualizer := ⟨rfl, rfl⟩
theorem queryPlaybackMode : Statement .queryPlaybackMode := ⟨rfl, rfl⟩
theorem querySoftwareVersion : Statement .querySoftwareVersion := ⟨rfl, rfl⟩
theorem queryFileCountInFolder : Statement .queryFileCountInFolder := ⟨rfl, rfl⟩
theorem queryFolderCount : Statement .queryFolderCount := ⟨rfl, rfl⟩
theorem transmit (F : Frame) : Statement (.transmit F) := ⟨rfl, rfl⟩
theorem send (m : Message) : Statement (.send m) := ⟨rfl, rfl⟩
theorem rxStart : Statement .rxStart := ⟨rfl, rfl⟩
theorem rxEnd : Statement .rxEnd := ⟨rfl, rfl⟩
theorem rxData (b : Byte) : Statement (.rxData b) := by
  by_cases h₁ : b = 0x7E
  · subst h₁; exact ⟨rfl, rfl⟩
  · by_cases h₂ : b = 0xEF
    · subst h₂; exact ⟨rfl, rfl⟩
    · simp only [Statement, Instr.canonical, decodeRxByte_data h₁ h₂, and_self]
theorem rxNoData : Statement .rxNoData := ⟨rfl, rfl⟩
theorem rxReadError : Statement .rxReadError := ⟨rfl, rfl⟩

end Sys2Proof.Laws.Pattern
end

