-- ==== Sys2Proof/Tests/Slice0.lean ====
section
/-! SUPPORT. Tests of the model and witnesses for the statements. Expected values are written out from spec/opcode_table.json
and spec/95_test_vectors.md, whose row a comment names. -/

namespace Sys2Proof.Tests

open Sys2Proof.Machine

/-! ### Helpers -/

/-- The next state, where there is one. -/
def after : Host.Outcome State Fault Refusal → Option State
  | .next t => some t
  | .fault _ | .refused _ => none

/-- The refusal, where there is one. -/
def refusal : Host.Outcome State Fault Refusal → Option Refusal
  | .refused r => some r
  | .next _ | .fault _ => none

/-- A caller who asks this after reset. -/
def asking (cs : List Call) : State := { State.reset with calls := cs }

/-- An idle block whose transport answers the writes so. -/
def answering (as : List (Option WriteAnswer)) : State := { State.reset with writeAnswers := as }

/-- The Pause frame of V7. -/
def pauseFrame : Frame := #v[0x7E, 0xFF, 0x06, 0x0E, 0x00, 0x00, 0x00, 0xFE, 0xED, 0xEF]

/-- A `transmit` of the Pause frame in progress with no byte accepted, the transport answering so. -/
def sending (cs : List Call) (as : List (Option WriteAnswer)) : State :=
  { State.reset with txframe := pauseFrame, txActive := true, calls := cs, writeAnswers := as }

/-- A reassembler in this state. -/
def receiving (buf : Frame) (cursor : Fin 11) : State := { State.reset with buf := buf, cursor := cursor }

/-- The buffer of V6 at cursor 5. -/
def half : Frame := #v[0x7E, 0xFF, 0x06, 0x0D, 0x00, 0x00, 0x00, 0x00, 0x00, 0x00]

/-- The buffer of V6 at cursor 9. -/
def almost : Frame := #v[0x7E, 0xFF, 0x06, 0x0D, 0x00, 0x00, 0x00, 0xFE, 0xEE, 0x00]

/-- The buffer of V6 at cursor 10. -/
def whole : Frame := #v[0x7E, 0xFF, 0x06, 0x0D, 0x00, 0x00, 0x00, 0xFE, 0xEE, 0xEF]

/-- `exec i` from `s` reaches a state with this cursor and buffer, and returned this. -/
def receives (i : Instr) (s : State) (cursor : Fin 11) (buf : Frame) (r : Result) : Bool :=
  (after (exec i s)).any fun t => t.cursor == cursor && t.buf == buf && t.outcomes == [r]

/-- `exec i` from reset returns this and changes nothing else. -/
def returns (i : Instr) (r : Result) : Bool := after (exec i State.reset) == some { State.reset with outcomes := [r] }

/-- `transmit(Pause)` under these answers ends, or hangs, so. -/
def transmits (as : List (Option WriteAnswer)) (wire : List Byte) (rs : List Result) (idx : Fin 11) : Bool :=
  (after (exec (.transmit pauseFrame) (answering as))).any fun t =>
    t.accepted == wire && t.outcomes == rs && t.txidx == idx && t.txActive == rs.isEmpty

/-! ### Well-formedness refuses each kind of ill-formed term -/

theorem test_wellFormed_volume : (Instr.specifyVolume 30).wellFormed = true ∧ (Instr.specifyVolume 31).wellFormed = false := by
  decide
theorem test_wellFormed_folder :
    (Instr.specifyFolder 99 255).wellFormed = true ∧ (Instr.specifyFolder 100 0).wellFormed = false := by decide
theorem test_wellFormed_mp3Track :
    (Instr.specifyMp3Track 9999).wellFormed = true ∧ (Instr.specifyMp3Track 10000).wellFormed = false := by decide
theorem test_wellFormed_advertisement :
    (Instr.specifyAdvertisement 9999).wellFormed = true ∧ (Instr.specifyAdvertisement 10000).wellFormed = false := by decide
theorem test_wellFormed_rxData :
    (Instr.rxData 0x41).wellFormed = true ∧ (Instr.rxData 0x7E).wellFormed = false ∧ (Instr.rxData 0xEF).wellFormed = false := by
  decide
theorem test_wellFormed_send :
    (Instr.send (.command (.specifyVolume 30))).wellFormed = true ∧
      (Instr.send (.command (.specifyVolume 31))).wellFormed = false := by decide

/-! ### Decoding: the `encoding` of a row of each format, bit by bit -/

theorem test_decode_bits_p0 : decodeTableWord 80
    0b01111110111111110000011000000010000000000000000000000000111111101111100111101111 = some .previous := by decide
theorem test_decode_bits_p16 : decodeTableWord 80
    0b01111110111111110000011000000011000000000000101110110111111111100011011011101111 = some (.specifyTrack 2999) := by
  decide
theorem test_decode_bits_p8 : decodeTableWord 80
    0b01111110111111110000011000000110000000000000000000001111111111101110011011101111 = some (.specifyVolume 15) := by decide
theorem test_decode_bits_p8x2 : decodeTableWord 80
    0b01111110111111110000011000001111000000000110001111111111111111011000101011101111 = some (.specifyFolder 99 255) := by
  decide
theorem test_decode_bits_rx : decodeTableWord 8 0b01111110 = some .rxStart ∧ decodeTableWord 8 0b11101111 = some .rxEnd ∧
    decodeTableWord 8 0b01000001 = some (.rxData 0x41) := by decide

/-! ### Decoding: one word of every constructor that has a pattern (V1, V2) -/

theorem test_decode_next : decodeTableWord 80 0x7EFF0601000000FEFAEF = some .next := by decide
theorem test_decode_previous : decodeTableWord 80 0x7EFF0602000000FEF9EF = some .previous := by decide
theorem test_decode_specifyTrack : decodeTableWord 80 0x7EFF060300FFFFFCFAEF = some (.specifyTrack 65535) := by decide
theorem test_decode_increaseVolume : decodeTableWord 80 0x7EFF0604000000FEF7EF = some .increaseVolume := by decide
theorem test_decode_decreaseVolume : decodeTableWord 80 0x7EFF0605000000FEF6EF = some .decreaseVolume := by decide
theorem test_decode_specifyVolume : decodeTableWord 80 0x7EFF060600001EFED7EF = some (.specifyVolume 30) := by decide
theorem test_decode_specifyEqualizer : decodeTableWord 80 0x7EFF0607000004FEF0EF = some (.specifyEqualizer .classic) := by
  decide
theorem test_decode_specifyPlaybackMode :
    decodeTableWord 80 0x7EFF0608000002FEF1EF = some (.specifyPlaybackMode .singleRepeat) := by decide
theorem test_decode_standby : decodeTableWord 80 0x7EFF060A000000FEF1EF = some .standby := by decide
theorem test_decode_normalWorking : decodeTableWord 80 0x7EFF060B000000FEF0EF = some .normalWorking := by decide
theorem test_decode_resetModule : decodeTableWord 80 0x7EFF060C000000FEEFEF = some .resetModule := by decide
theorem test_decode_playback : decodeTableWord 80 0x7EFF060D000000FEEEEF = some .playback := by decide
theorem test_decode_pause : decodeTableWord 80 0x7EFF060E000000FEEDEF = some .pause := by decide
theorem test_decode_specifyFolder : decodeTableWord 80 0x7EFF060F000A7EFE64EF = some (.specifyFolder 10 126) := by decide
theorem test_decode_specifyMp3Track : decodeTableWord 80 0x7EFF061200270FFEB3EF = some (.specifyMp3Track 9999) := by decide
theorem test_decode_specifyAdvertisement : decodeTableWord 80 0x7EFF0613001234FEA2EF = some (.specifyAdvertisement 4660) := by
  decide
theorem test_decode_stopAdvertisement : decodeTableWord 80 0x7EFF0615000000FEE6EF = some .stopAdvertisement := by decide
theorem test_decode_stop : decodeTableWord 80 0x7EFF0616000000FEE5EF = some .stop := by decide

/-- Each reason of rejection, by name: the size, the five static bytes, the checksum, an identifier no row has (`0x09`), and
the parameter bytes of no row (a nonzero padding byte, volume 31, folder 100, equalizer 6, MP3 track 10000). -/
theorem test_decode_rejects :
    decode [] = .error .size ∧ decode [0x7E, 0xFF] = .error .size ∧
    decode (patternBytes 80 0x7FFF0602000000FEF9EF) = .error .startMarker ∧
    decode (patternBytes 80 0x7EFE0602000000FEFAEF) = .error .version ∧
    decode (patternBytes 80 0x7EFF0702000000FEF8EF) = .error .length ∧
    decode (patternBytes 80 0x7EFF0602010000FEF8EF) = .error .feedback ∧
    decode (patternBytes 80 0x7EFF0602000000FEF9EE) = .error .endMarker ∧
    decode (patternBytes 80 0x7EFF0602000000FEF8EF) = .error .checksum ∧
    decode (patternBytes 80 0x7EFF0609000000FEF2EF) = .error .identifier := by decide

theorem test_decode_rejects_parameters :
    decode (patternBytes 80 0x7EFF0602000001FEF8EF) = .error .parameter ∧
    decode (patternBytes 80 0x7EFF060600001FFED6EF) = .error .parameter ∧
    decode (patternBytes 80 0x7EFF060F006405FE83EF) = .error .parameter ∧
    decode (patternBytes 80 0x7EFF0607000006FEEEEF) = .error .parameter ∧
    decode (patternBytes 80 0x7EFF0612002710FEB2EF) = .error .parameter := by decide

/-! ### `encode`: the corners of V2, S2 and V3 -/

theorem test_next : returns .next (.frame #v[0x7E, 0xFF, 0x06, 0x01, 0x00, 0x00, 0x00, 0xFE, 0xFA, 0xEF]) = true := by decide
theorem test_specifyTrack_not_clamped :
    returns (.specifyTrack 65535) (.frame #v[0x7E, 0xFF, 0x06, 0x03, 0x00, 0xFF, 0xFF, 0xFC, 0xFA, 0xEF]) = true := by decide
theorem test_specifyVolume_clamped :
    returns (.specifyVolume 31) (.frame #v[0x7E, 0xFF, 0x06, 0x06, 0x00, 0x00, 0x1E, 0xFE, 0xD7, 0xEF]) = true := by decide
theorem test_specifyEqualizer_bass :
    returns (.specifyEqualizer .bass) (.frame #v[0x7E, 0xFF, 0x06, 0x07, 0x00, 0x00, 0x05, 0xFE, 0xEF, 0xEF]) = true := by
  decide
theorem test_specifyPlaybackMode_random :
    returns (.specifyPlaybackMode .random) (.frame #v[0x7E, 0xFF, 0x06, 0x08, 0x00, 0x00, 0x03, 0xFE, 0xF0, 0xEF]) = true := by
  decide
theorem test_specifyFolder_clamped :
    returns (.specifyFolder 200 5) (.frame #v[0x7E, 0xFF, 0x06, 0x0F, 0x00, 0x63, 0x05, 0xFE, 0x84, 0xEF]) = true := by decide
theorem test_specifyFolder_subtrack_not_clamped :
    returns (.specifyFolder 99 255) (.frame #v[0x7E, 0xFF, 0x06, 0x0F, 0x00, 0x63, 0xFF, 0xFD, 0x8A, 0xEF]) = true := by
  decide
theorem test_specifyMp3Track_clamped :
    returns (.specifyMp3Track 10000) (.frame #v[0x7E, 0xFF, 0x06, 0x12, 0x00, 0x27, 0x0F, 0xFE, 0xB3, 0xEF]) = true := by
  decide
theorem test_specifyMp3Track_high_byte_first :
    returns (.specifyMp3Track 256) (.frame #v[0x7E, 0xFF, 0x06, 0x12, 0x00, 0x01, 0x00, 0xFE, 0xE8, 0xEF]) = true := by decide
theorem test_specifyAdvertisement :
    returns (.specifyAdvertisement 4660) (.frame #v[0x7E, 0xFF, 0x06, 0x13, 0x00, 0x12, 0x34, 0xFE, 0xA2, 0xEF]) = true := by
  decide
theorem test_queryVolume :
    returns .queryVolume (.frame #v[0x7E, 0xFF, 0x06, 0x01, 0x00, 0x00, 0x00, 0xFE, 0xFA, 0xEF]) = true := by decide
theorem test_queryStatus : returns .queryStatus .notSupported = true := by decide

/-- V4: the largest sum of six bytes does not wrap. -/
theorem test_cksum_largest : cksum #v[0x7E, 0xFF, 0xFF, 0xFF, 0xFF, 0xFF, 0xFF, 0x00, 0x00, 0xEF] = 0xFA06 := by decide
/-- V4: offsets 0 and 9 do not enter. -/
theorem test_cksum_offsets : cksum #v[0x00, 0xFF, 0x06, 0x0D, 0x00, 0x00, 0x00, 0x00, 0x00, 0x00] = 0xFEEE := by decide

/-! ### Enumeration conversion (V5) -/

theorem test_convert :
    EnumKind.playbackMode.convert 0x03 = some (.playbackMode .random) ∧ EnumKind.playbackMode.convert 0x04 = none ∧
    EnumKind.equalizer.convert 0x05 = some (.equalizer .bass) ∧ EnumKind.equalizer.convert 0x06 = none ∧
    EnumKind.peripheralState.convert 0x00 = none ∧
    EnumKind.peripheralState.convert 0x04 = some (.peripheralState .checkSumNotMatch) ∧
    EnumKind.peripheralState.convert 0x08 = none ∧ EnumKind.device.convert 0x00 = none ∧
    EnumKind.device.convert 0x02 = some (.device .sd) ∧ EnumKind.device.convert 0x06 = none := by decide

/-! ### `transmit` and `send` (V7, P2) -/

theorem test_transmit_ends :
    transmits (List.replicate 10 (some .accepted)) [0x7E, 0xFF, 0x06, 0x0E, 0x00, 0x00, 0x00, 0xFE, 0xED, 0xEF] [.ok] 10 = true ∧
    transmits [some .accepted, some .accepted, some .accepted, some .accepted, some .rejected] [0x7E, 0xFF, 0x06, 0x0E]
      [.writeFailure] 4 = true := by decide +kernel
theorem test_transmit_hangs : transmits (List.replicate 3 (some .accepted)) [0x7E, 0xFF, 0x06] [] 3 = true := by decide
theorem test_send_clamps :
    after (exec (.send (.command (.specifyFolder 200 5))) (answering [some .accepted, some .rejected])) =
      some { State.reset with
        txframe := #v[0x7E, 0xFF, 0x06, 0x0F, 0x00, 0x63, 0x05, 0xFE, 0x84, 0xEF], txidx := 1,
        writes := [(0x7E, .accepted), (0xFF, .rejected)], outcomes := [.writeFailure] } := by decide
theorem test_send_unimplemented_query : returns (.send (.query .status)) .notSupported = true := by decide

/-! ### `rx_step` (V6) -/

theorem test_rxStart :
    receives .rxStart (receiving half 5) 1 #v[0x7E, 0x00, 0x00, 0x00, 0x00, 0x00, 0x00, 0x00, 0x00, 0x00] .incomplete = true ∧
    receives .rxStart (receiving whole 10) 1 #v[0x7E, 0x00, 0x00, 0x00, 0x00, 0x00, 0x00, 0x00, 0x00, 0x00] .incomplete = true := by
  decide
theorem test_rxEnd_room :
    receives .rxEnd State.reset 1 #v[0xEF, 0x00, 0x00, 0x00, 0x00, 0x00, 0x00, 0x00, 0x00, 0x00]
      (.complete #v[0xEF, 0x00, 0x00, 0x00, 0x00, 0x00, 0x00, 0x00, 0x00, 0x00]) = true ∧
    receives .rxEnd (receiving almost 9) 10 whole (.complete whole) = true := by decide
theorem test_rxEnd_full : receives .rxEnd (receiving whole 10) 10 whole .overrun = true := by decide
theorem test_rxData_room :
    receives (.rxData 0x41) State.reset 1 #v[0x41, 0x00, 0x00, 0x00, 0x00, 0x00, 0x00, 0x00, 0x00, 0x00] .incomplete = true ∧
    receives (.rxData 0x12) (receiving almost 9) 10 #v[0x7E, 0xFF, 0x06, 0x0D, 0x00, 0x00, 0x00, 0xFE, 0xEE, 0x12]
      .incomplete = true := by decide
theorem test_rxData_full : receives (.rxData 0x12) (receiving whole 10) 10 whole .incomplete = true := by decide
theorem test_rxNoData : receives .rxNoData (receiving half 5) 5 half .noData = true := by decide
theorem test_rxReadError : receives .rxReadError (receiving whole 10) 10 whole .readFailure = true := by decide

/-! ### The step -/

/-- A placed frame pattern is what the next step runs. -/
theorem test_fetch_frame :
    after (step (State.reset.withFetchWord 80 0x7EFF0616000000FEE5EF)) =
      some { State.reset with outcomes := [.frame #v[0x7E, 0xFF, 0x06, 0x16, 0x00, 0x00, 0x00, 0xFE, 0xE5, 0xEF]] } := by decide
/-- A placed received byte is taken from the transport by the next step. -/
theorem test_fetch_byte :
    after (step (State.reset.withFetchWord 8 0x41)) =
      some { State.reset with
        buf := #v[0x41, 0x00, 0x00, 0x00, 0x00, 0x00, 0x00, 0x00, 0x00, 0x00], cursor := 1, consumed := [0x41],
        outcomes := [.incomplete] } := by decide
/-- R279: an equalizer byte outside its set at the command port. -/
theorem test_port_conversion_failure :
    after (step (asking [.send (.equalizerByte 0x06)])) = some { State.reset with outcomes := [.conversionFailure] } := by decide

/-! ### Witnesses: a state and operands that meet the hypotheses of each statement that has any -/

/-- An idle block, and a waiting `transmit` with each kind of answer. -/
theorem witness_CreationRestoresTheResetRegisters :
    ((asking [.create]).calls = .create :: [] ∧ (asking [.create]).txActive = false) ∧
    ((sending [.create] []).calls = .create :: [] ∧ (sending [.create] []).txActive = true ∧
      (sending [.create] []).writeAnswers = []) ∧
    (sending [.create] [none]).writeAnswers = none :: [] ∧
    (sending [.create] [some .accepted]).writeAnswers = some .accepted :: [] := by decide
theorem witness_PlainCommandsReturnTheirFrames : (receiving half 5).txActive = false := by decide
theorem witness_NextAndQueryVolumeShareOneFrame : (receiving half 5).txActive = false := by decide
theorem witness_ResetModuleIsAFrameThatCompletesTwice : (receiving whole 10).txActive = false := by decide
theorem witness_SpecifyTrackIsNotClamped : (receiving half 5).txActive = false := by decide
theorem witness_SpecifyVolumeClampsToThirty : (receiving half 5).txActive = false := by decide
theorem witness_EnumerationCommandsReturnTheirFrames : (receiving half 5).txActive = false := by decide
theorem witness_SpecifyFolderClampsTheFolderOnly : (receiving half 5).txActive = false := by decide
theorem witness_Mp3AndAdvertisementTracksClampTo9999 : (receiving half 5).txActive = false := by decide
theorem witness_EveryCommandFrameObeysTheFrameLaw : (receiving half 5).txActive = false := by decide
theorem witness_CommandFramesAreInjectiveAfterClamping :
    State.reset.txActive = false ∧ (Command.specifyVolume 31).clamped = (Command.specifyVolume 30).clamped ∧
      (Command.specifyVolume 29).clamped ≠ (Command.specifyVolume 30).clamped := by decide
/-- Each clause of the clamp at the edge of its range, and a pair in order. -/
theorem witness_ClampSaturates :
    (5 : Byte) ≤ 30 ∧ (4 : Byte) < 5 ∧ (30 : Byte) < 31 ∧ ((5 : Byte) ≤ 5 ∧ (5 : Byte) ≤ 30) ∧
      ((5 : Byte) ≤ 30 ∧ (30 : Byte) ≤ 30) ∧ (4 : Byte) ≤ 31 := by decide
theorem witness_UnimplementedQueriesAreNotSupported : (receiving half 5).txActive = false := by decide
/-- Ten acceptances; a rejection of the first and of the last byte; no answer to the first, none in time to the last. -/
theorem witness_TransmitRunsItsLoop :
    (answering (List.replicate 10 (some .accepted))).txActive = false ∧
    (answering (List.replicate 10 (some .accepted))).writeAnswers = List.replicate 10 (some .accepted) ++ [] ∧
    (answering [some .rejected]).writeAnswers = List.replicate (0 : Fin 10).val (some .accepted) ++ some .rejected :: [] ∧
    (answering (List.replicate 9 (some .accepted) ++ [some .rejected])).writeAnswers =
      List.replicate (9 : Fin 10).val (some .accepted) ++ some .rejected :: [] ∧
    (answering []).writeAnswers = List.replicate (0 : Fin 10).val (some .accepted) ++ [] ∧
    (answering (List.replicate 9 (some .accepted) ++ [none])).writeAnswers =
      List.replicate (9 : Fin 10).val (some .accepted) ++ none :: [] := by decide
theorem witness_TransmitOffersAPrefixOnce : (answering [some .accepted, none]).txActive = false := by decide
theorem witness_SendIsEncodeThenTransmit : (answering [some .accepted, none]).txActive = false := by decide
theorem witness_SendCompletesAndLeavesTheReassembler : (answering [some .accepted, none]).txActive = false := by decide
theorem witness_TransmitEndsWithinTenAnswers :
    let as := List.replicate 9 WriteAnswer.accepted ++ [.rejected]
    (answering (as.map some ++ [none])).txActive = false ∧ as.length = 10 ∧
      (answering (as.map some ++ [none])).writeAnswers = as.map some ++ [none] := by decide
/-- No byte accepted and nine, and a caller who asks nothing and one who goes on asking. -/
theorem witness_StalledTransmitNeverEnds :
    let busy : State := { answering (List.replicate 9 (some .accepted)) with
      calls := [.rxStep, .convert .device 0x02, .send (.typed (.command .stop)), .rxStep] }
    busy.txActive = false ∧ Call.create ∉ busy.calls ∧
    busy.writeAnswers = List.replicate (9 : Fin 10).val (some .accepted) ∧
    (answering []).calls = [] ∧ (answering []).writeAnswers = List.replicate (0 : Fin 10).val (some .accepted) := by decide
theorem witness_WaitingDoesNotChangeATransmit :
    (answering [none, some .accepted, none, none, some .rejected]).txActive = false ∧
    (answering [none, some .accepted, none, none, some .rejected]).calls = [] := by decide
theorem witness_NextFrameFollowsABrokenPrefix :
    (answering (some .rejected :: List.replicate 10 (some .accepted))).txActive = false ∧
    (answering (some .rejected :: List.replicate 10 (some .accepted))).writeAnswers =
      List.replicate (0 : Fin 10).val (some .accepted) ++ some .rejected :: (List.replicate 10 (some .accepted) ++ []) ∧
    (answering (List.replicate 9 (some .accepted) ++ some .rejected :: List.replicate 10 (some .accepted))).writeAnswers =
      List.replicate (9 : Fin 10).val (some .accepted) ++ some .rejected :: (List.replicate 10 (some .accepted) ++ []) := by
  decide
/-- Each of the three answers the transport can have ready, the last one at the first and at the last byte. -/
theorem witness_TransmitterRequestsWaitForTheRunningTransmit :
    let c := Call.send (.typed (.command .stop))
    let last : State := { sending [c] [some .accepted] with txidx := 9 }
    c.agent = some .transmitter ∧
    ((sending [c] []).txActive = true ∧ (sending [c] []).calls = c :: [] ∧ (sending [c] []).writeAnswers = []) ∧
    ((sending [c] [none]).txActive = true ∧ (sending [c] [none]).writeAnswers = none :: []) ∧
    ((sending [c] [some .rejected]).txActive = true ∧ (sending [c] [some .rejected]).writeAnswers = some .rejected :: [] ∧
      (sending [c] [some .rejected]).txidx = (0 : Fin 10).castSucc) ∧
    (last.txActive = true ∧ last.writeAnswers = some .accepted :: [] ∧ last.txidx = (9 : Fin 10).castSucc) := by
  decide
theorem witness_ReassemblerRunsWhileATransmitWaits :
    let s (as : List (Option WriteAnswer)) : State := { sending [.rxStep] as with readAnswers := [.byte 0x7E] }
    (s []).txActive = true ∧ (s []).calls = .rxStep :: [] ∧ (s []).readAnswers = .byte 0x7E :: [] ∧
      (s []).writeAnswers = [] ∧ (s [none]).writeAnswers = none :: [] := by decide
/-- An operation of each kind. -/
theorem witness_OverlappingTransmitterOperationsAreRefused :
    (sending [] []).txActive = true ∧ isTransmitterOp .stop ∧ isTransmitterOp .queryStatus ∧
      isTransmitterOp (.transmit pauseFrame) ∧ isTransmitterOp (.send (.command .stop)) ∧ isReassemblerOp .rxEnd ∧
      isReassemblerOp .rxNoData :=
  ⟨rfl, .inl ⟨.command .stop, rfl⟩, .inl ⟨.query .status, rfl⟩, .inr (.inl ⟨_, rfl⟩), .inr (.inr ⟨_, rfl⟩),
    ⟨.byte 0xEF, rfl⟩, ⟨.noData, rfl⟩⟩
/-- The first and the last register, and a buffer that is clear from `cursor` on. -/
theorem witness_EndMarkerWithRoomCompletes :
    State.reset.cursor = (0 : Fin 10).castSucc ∧ (receiving almost 9).cursor = (9 : Fin 10).castSucc ∧
      (receiving half 5).TailClear := by
  refine ⟨by decide, by decide, ?_⟩
  unfold State.TailClear
  decide
theorem witness_EndMarkerWithoutRoomOverruns : (receiving whole 10).cursor = 10 := by decide
theorem witness_DataByteWithRoomIsStored :
    (0x41 : Byte) ≠ 0x7E ∧ (0x41 : Byte) ≠ 0xEF ∧ State.reset.cursor = (0 : Fin 10).castSucc ∧
      (receiving almost 9).cursor = (9 : Fin 10).castSucc := by decide
theorem witness_DataByteWithoutRoomIsDropped :
    (0x41 : Byte) ≠ 0x7E ∧ (0x41 : Byte) ≠ 0xEF ∧ (receiving whole 10).cursor = 10 := by decide
/-- A step that takes a byte, and one that takes none and creates nothing. -/
theorem witness_CursorFollowsTheReceivedByte :
    (∃ t, step (feedingBytes State.reset [0xEF]) = .next t) ∧
      (∃ t, step (asking [.encode (.typed (.command .stop))]) = .next t) ∧
      (asking [.encode (.typed (.command .stop))]).calls.head? ≠ some .create :=
  ⟨⟨_, rfl⟩, ⟨_, rfl⟩, by decide⟩
theorem witness_ReceivedByteTouchesOneRegister :
    (0x12 : Byte) ≠ 0x7E ∧ (∃ t, exec (ReadAnswer.byte 0x12).instr (receiving almost 9) = .next t) ∧
      ∃ t, exec (ReadAnswer.byte 0xEF).instr (receiving whole 10) = .next t :=
  ⟨by decide, ⟨_, rfl⟩, ⟨_, rfl⟩⟩
theorem witness_StepKeepsTheBufferTailClear :
    (feedingBytes State.reset [0xEF]).TailClear ∧ ∃ t, step (feedingBytes State.reset [0xEF]) = .next t := by
  refine ⟨?_, ⟨_, rfl⟩⟩
  unfold State.TailClear
  decide
/-- A `transmit` in progress with one byte on record, about to go on. -/
theorem witness_StepKeepsTheTransmitSound :
    let s : State := { sending [] [some .accepted] with txidx := 1, writes := [(0x7E, .accepted)] }
    s.TxSound ∧ s.txActive = true ∧ ∃ t, step s = .next t :=
  ⟨fun _ => ⟨by decide, ⟨[], by decide⟩⟩, rfl, ⟨_, rfl⟩⟩
theorem witness_MarkerFreeFramesRoundTrip :
    State.reset.txActive = false ∧ whole[0] = 0x7E ∧ whole[9] = 0xEF ∧
      ∀ i : Fin 10, 1 ≤ i.val → i.val ≤ 8 → whole[i] ≠ 0x7E ∧ whole[i] ≠ 0xEF := by decide
/-- The frame of SpecifyMp3Track(239), V6. -/
theorem witness_InnerEndMarkersCompleteEarly :
    let F : Frame := #v[0x7E, 0xFF, 0x06, 0x12, 0x00, 0x00, 0xEF, 0xFD, 0xFA, 0xEF]
    State.reset.txActive = false ∧ F[0] = 0x7E ∧ F[9] = 0xEF ∧ (∀ i : Fin 10, 1 ≤ i.val → i.val ≤ 8 → F[i] ≠ 0x7E) ∧
      F.toList.count 0xEF = 2 := by decide
/-- The frame of SpecifyTrack(122), V6, and ten bytes with the inner marker at offset 1. -/
theorem witness_InnerStartMarkerTruncatesTheFrame :
    let F : Frame := #v[0x7E, 0xFF, 0x06, 0x03, 0x00, 0x00, 0x7A, 0xFE, 0x7E, 0xEF]
    let G : Frame := #v[0x7E, 0x7E, 0x06, 0x03, 0x00, 0x00, 0x00, 0xFE, 0xF8, 0xEF]
    State.reset.txActive = false ∧
    (F[0] = 0x7E ∧ F[9] = 0xEF ∧ F[(8 : Fin 10)] = 0x7E ∧
      ∀ i : Fin 10, 1 ≤ i.val → i.val ≤ 8 → i ≠ 8 → F[i] ≠ 0x7E ∧ F[i] ≠ 0xEF) ∧
    (G[0] = 0x7E ∧ G[9] = 0xEF ∧ G[(1 : Fin 10)] = 0x7E ∧
      ∀ i : Fin 10, 1 ≤ i.val → i.val ≤ 8 → i ≠ 1 → G[i] ≠ 0x7E ∧ G[i] ≠ 0xEF) :=
  ⟨by decide, by decide, by decide⟩
/-- A partial sequence without an end marker, and one with. -/
theorem witness_SpuriousStartMarkerResynchronises :
    (receiving whole 10).txActive = false ∧ whole[0] = 0x7E ∧ whole[9] = 0xEF ∧
      (∀ i : Fin 10, 1 ≤ i.val → i.val ≤ 8 → whole[i] ≠ 0x7E ∧ whole[i] ≠ 0xEF) ∧
      (∀ b ∈ [(0x7E : Byte), 0x01], b ≠ 0xEF) ∧ ¬ ∀ b ∈ [(0x7E : Byte), 0xEF], b ≠ 0xEF := by decide
theorem witness_CompletesBetweenStartMarkersAreBounded :
    State.reset.txActive = false ∧ ∀ b ∈ List.replicate 11 (0xEF : Byte), b ≠ 0x7E := by decide
theorem witness_FullBufferIsDeafUntilAStartMarker :
    (receiving whole 10).txActive = false ∧ (receiving whole 10).cursor = 10 ∧
      ∀ b ∈ [(0x55 : Byte), 0x00], b ≠ 0x7E ∧ b ≠ 0xEF := by decide
/-- The ten bytes of S5. -/
theorem witness_TenDataBytesThenEndMarkerOverrun :
    State.reset.txActive = false ∧ State.reset.cursor = 0 ∧
      ∀ i : Fin 10, (#v[0x11, 0x22, 0x33, 0x44, 0x55, 0x66, 0x77, 0x88, 0x99, 0xAA] : Frame)[i] ≠ 0x7E ∧
        (#v[0x11, 0x22, 0x33, 0x44, 0x55, 0x66, 0x77, 0x88, 0x99, 0xAA] : Frame)[i] ≠ 0xEF := by decide
/-- A well-formed instruction with operands, and one whose operand the pattern carries clamped. -/
theorem witness_DecodeReversesEncode :
    encode (.specifyVolume 15) = some [0x7E, 0xFF, 0x06, 0x06, 0x00, 0x00, 0x0F, 0xFE, 0xE6, 0xEF] ∧
    (Instr.specifyVolume 15).wellFormed = true ∧ Instr.specifyVolume 15 ≠ .queryVolume ∧
    encode (.specifyVolume 31) = some [0x7E, 0xFF, 0x06, 0x06, 0x00, 0x00, 0x1E, 0xFE, 0xD7, 0xEF] := by decide
theorem witness_EncodeReversesDecode :
    decode [0x7E, 0xFF, 0x06, 0x06, 0x00, 0x00, 0x0F, 0xFE, 0xE6, 0xEF] = .ok (.specifyVolume 15) ∧
    decode [0x41] = .ok (.rxData 0x41) := by decide
theorem witness_MachineFramesAreTheTablePatterns : (receiving half 5).txActive = false := by decide
/-- A conversion that succeeds, one that fails, and one while a `transmit` waits with each kind of answer; the first byte outside each set the port converts, at both entries. -/
theorem witness_FailedConversionBuildsNoCommand :
    (asking [.convert .device 0x05]).txActive = false ∧
    (asking [.convert .device 0x05]).calls = .convert .device 0x05 :: [] ∧ EnumKind.device.convert 0x05 = some (.device .flash) ∧
    (asking [.convert .device 0x06]).calls = .convert .device 0x06 :: [] ∧ EnumKind.device.convert 0x06 = none ∧
    ((sending [.convert .device 0x05] []).txActive = true ∧ (sending [.convert .device 0x05] []).writeAnswers = []) ∧
    (sending [.convert .device 0x05] [none]).writeAnswers = none :: [] ∧
    (sending [.convert .device 0x05] [some .rejected]).writeAnswers = some .rejected :: [] ∧
    (0x06 : Byte) ≤ 0x06 ∧ (asking [.encode (.equalizerByte 0x06)]).calls = .encode (.equalizerByte 0x06) :: [] ∧
    (asking [.send (.equalizerByte 0x06)]).calls = .send (.equalizerByte 0x06) :: [] ∧
    (0x04 : Byte) ≤ 0x04 ∧ (asking [.encode (.playbackModeByte 0x04)]).calls = .encode (.playbackModeByte 0x04) :: [] ∧
    (asking [.send (.playbackModeByte 0x04)]).calls = .send (.playbackModeByte 0x04) :: [] := by decide
/-- Each way a request can name its operation. -/
theorem witness_StepRunsTheDecodedInstruction :
    let p : List Byte := [0x7E, 0xFF, 0x06, 0x16, 0x00, 0x00, 0x00, 0xFE, 0xE5, 0xEF]
    let rx (rs : List ReadAnswer) : State := { asking [.rxStep] with readAnswers := rs }
    (asking [.encode (.typed (.query .status))]).txActive = false ∧
    (asking [.encode (.typed (.query .status))]).calls = .encode (.typed (.query .status)) :: [] ∧
    (asking [.transmit whole]).calls = .transmit whole :: [] ∧
    (asking [.send (.typed (.command .stop))]).calls = .send (.typed (.command .stop)) :: [] ∧
    (Member.code (.equalizer .normal) = 0x00 ∧ Member.code (.equalizer .bass) = 0x05 ∧
      (asking [.encode (.equalizerByte 0x05)]).calls = .encode (.equalizerByte 0x05) :: [] ∧
      (asking [.send (.equalizerByte 0x00)]).calls = .send (.equalizerByte 0x00) :: []) ∧
    (Member.code (.playbackMode .repeatAll) = 0x00 ∧ Member.code (.playbackMode .random) = 0x03 ∧
      (asking [.encode (.playbackModeByte 0x03)]).calls = .encode (.playbackModeByte 0x03) :: [] ∧
      (asking [.send (.playbackModeByte 0x00)]).calls = .send (.playbackModeByte 0x00) :: []) ∧
    ((rx [.byte 0xEF]).calls = .rxStep :: [] ∧ (rx [.byte 0xEF]).readAnswers = .byte 0xEF :: [] ∧
      decode [0xEF] = .ok .rxEnd) ∧
    (rx [.noData]).readAnswers = .noData :: [] ∧ (rx [.readError]).readAnswers = .readError :: [] ∧ (rx []).readAnswers = [] ∧
    ((asking [.pattern p]).calls = .pattern p :: [] ∧ decode p = .ok .stop) ∧
    ((asking [.pattern []]).calls = .pattern [] :: [] ∧ decode [] = .error .size) := by decide
theorem witness_PlacedPatternRunsNext :
    decodeTableWord 80 0x7EFF0616000000FEE5EF = some .stop ∧ decodeTableWord 8 0x7E = some .rxStart := by decide
/-- Both outcomes of a step. -/
theorem witness_StepStopsOnlyOnAnUndecodablePattern :
    after (step State.reset) = some State.reset ∧
      refusal (step (asking [.pattern []])) = some (.undecodablePattern .size) := by decide
theorem witness_TheTwoAgentsShareNoState :
    (∃ t, exec (.transmit pauseFrame) (answering [some .accepted]) = .next t) ∧ isTransmitterOp (.transmit pauseFrame) ∧
      (∃ t, exec .rxEnd (sending [] []) = .next t) ∧ isReassemblerOp .rxEnd ∧
      (∃ t, exec .stop State.reset = .next t) ∧ Instr.stop = (Message.command .stop).instr :=
  ⟨⟨_, rfl⟩, .inr (.inl ⟨_, rfl⟩), ⟨_, rfl⟩, ⟨.byte 0xEF, rfl⟩, ⟨_, rfl⟩, rfl⟩
/-- Two states that agree on the reassembler and differ in the transmitter. -/
theorem witness_ReassemblerLearnsNothingOfTheTransmitter :
    State.reset.buf = (sending [] []).buf ∧ State.reset.cursor = (sending [] []).cursor ∧ State.reset ≠ sending [] [] := by
  decide
theorem witness_AStepReturnsAtMostOneOutcome : ∃ t, step (feedingBytes State.reset [0xEF]) = .next t := ⟨_, rfl⟩
/-- Two states that differ in the record alone, one step of each kind. -/
theorem witness_TheRecordIsNeverRead :
    let s := asking [.encode (.typed (.query .status))]
    let s' : State := { s with consumed := [0x7E], outcomes := [.incomplete] }
    let u := asking [.pattern []]
    let u' : State := { u with outcomes := [.ok] }
    s.unrecorded = s'.unrecorded ∧ (∃ t, step s = .next t) ∧ u.unrecorded = u'.unrecorded ∧
      step u = .refused (.undecodablePattern .size) :=
  ⟨by decide, ⟨_, rfl⟩, by decide, rfl⟩

end Sys2Proof.Tests
end

section
/-! PROOFS. The encoder's commands (spec/41_encoder_commands.md): what a command or query row returns, in the layout
`wireFrame`, and the obligations on constant frames and on clamped tracks. -/

namespace Sys2Proof

/-! ### Slices as numbers -/

theorem hi8_eq_ofNat (v : Half) : hi8 v = BitVec.ofNat 8 (v.toNat / 256) := by
  rw [← hi8_toNat, BitVec.ofNat_toNat, BitVec.setWidth_eq]

theorem lo8_eq_ofNat (v : Half) : lo8 v = BitVec.ofNat 8 (v.toNat % 256) := by
  rw [← lo8_toNat, BitVec.ofNat_toNat, BitVec.setWidth_eq]

/-- The clamp to the track domain of R124 is a minimum. -/
theorem clamp_track_toNat (t : Half) : (clamp t config.trackMin config.trackMax).toNat = min t.toNat 9999 :=
  clamp_zero_toNat t 9999

end Sys2Proof

namespace Sys2Proof.Machine

/-! ### What a command or query row returns (R150, R190) -/

theorem returns_frame {v : Message} {F : Frame} {s : State} (h : s.txActive = false) (hF : encodeMessage v = some F) :
    Returns v.instr s (.frame F) :=
  (exec_message v s).trans (encodeOp_some h hF)

theorem command_returns_wireFrame (c : Command) {s : State} (h : s.txActive = false) :
    Returns c.instr s (.frame (wireFrame c.id c.params.first c.params.second)) :=
  encodeCommand_eq_wireFrame c ▸ returns_frame (v := .command c) h rfl

theorem queryVolume_returns_wireFrame {s : State} (h : s.txActive = false) :
    Returns .queryVolume s (.frame (wireFrame 0x01 0x00 0x00)) :=
  buildFrame_eq_wireFrame 0x01 .p0 ▸ returns_frame (v := .query .volume) h rfl

/-- A command with a 16-bit parameter puts that parameter in the frame high byte first (R85). -/
theorem command_returns_wireFrame_of_p16 {c : Command} {p : Half} {s : State} (h : s.txActive = false)
    (hp : c.params = .p16 p) :
    Returns c.instr s (.frame (wireFrame c.id (BitVec.ofNat 8 (p.toNat / 256)) (BitVec.ofNat 8 (p.toNat % 256)))) := by
  have hc := command_returns_wireFrame c h
  rwa [hp, ParamForm.first, ParamForm.second, hi8_eq_ofNat, lo8_eq_ofNat] at hc

end Sys2Proof.Machine

section
open Sys2Proof Sys2Proof.Machine

/-- Settles O10: the parameter of both commands is the clamped track, whose number is the minimum with 9999. -/
theorem mp3AndAdvertisementTracksClampTo9999 : Obligations.Mp3AndAdvertisementTracksClampTo9999 := by
  intro s t h
  rw [← clamp_track_toNat]
  exact ⟨command_returns_wireFrame_of_p16 (c := .specifyMp3Track t) h rfl,
    command_returns_wireFrame_of_p16 (c := .specifyAdvertisement t) h rfl⟩

/-- Settles O3: each of the nine frames is the `wireFrame` of the command's identifier with zero parameter bytes. -/
theorem plainCommandsReturnTheirFrames : Obligations.PlainCommandsReturnTheirFrames := by
  intro s h
  exact ⟨command_returns_wireFrame .previous h, command_returns_wireFrame .increaseVolume h,
    command_returns_wireFrame .decreaseVolume h, command_returns_wireFrame .standby h,
    command_returns_wireFrame .normalWorking h, command_returns_wireFrame .playback h,
    command_returns_wireFrame .pause h, command_returns_wireFrame .stopAdvertisement h,
    command_returns_wireFrame .stop h⟩

/-- Settles O4: both are the `wireFrame` of identifier `0x01` with zero parameter bytes. -/
theorem nextAndQueryVolumeShareOneFrame : Obligations.NextAndQueryVolumeShareOneFrame := by
  intro s h
  exact ⟨command_returns_wireFrame .next h, queryVolume_returns_wireFrame h⟩

end
end

section
/-! PROOFS. The encoder's queries (spec/42_encoder_queries.md): what `encode` and `send` of a query without an identifier
return, and the obligation on the six of them. -/

namespace Sys2Proof.Machine

/-! ### A message without a frame (R190, R214) -/

theorem sendOp_none {v : Message} (hF : encodeMessage v = none) (s : State) : sendOp v s = s.report .notSupported := by
  simp [sendOp, hF]

theorem encodeMessage_query_none {q : Query} (hq : q.id = none) : encodeMessage (.query q) = none := by
  simp [encodeMessage, encodeQuery, hq]

theorem returns_notSupported {v : Message} {s : State} (h : s.txActive = false) (hF : encodeMessage v = none) :
    Returns v.instr s .notSupported :=
  (exec_message v s).trans (encodeOp_none h hF)

theorem send_returns_notSupported {v : Message} {s : State} (h : s.txActive = false) (hF : encodeMessage v = none) :
    Returns (.send v) s .notSupported := by
  rw [Returns, exec_send, onTransmitter_idle h, sendOp_none hF]
  rfl

/-- `encode` and `send` of a query without an identifier: the latter decides before any write (R214). -/
theorem query_notSupported {q : Query} {s : State} (h : s.txActive = false) (hq : q.id = none) :
    Returns q.instr s .notSupported ∧ Returns (.send (.query q)) s .notSupported :=
  have hF := encodeMessage_query_none hq
  ⟨returns_notSupported h hF, send_returns_notSupported h hF⟩

end Sys2Proof.Machine

section
open Sys2Proof Sys2Proof.Machine

/-- Settles O14: each of the six queries has no identifier, so it has no frame to return or to transmit. -/
theorem unimplementedQueriesAreNotSupported : Obligations.UnimplementedQueriesAreNotSupported := by
  intro s h
  exact ⟨query_notSupported (q := .status) h rfl, query_notSupported (q := .equalizer) h rfl,
    query_notSupported (q := .playbackMode) h rfl, query_notSupported (q := .softwareVersion) h rfl,
    query_notSupported (q := .fileCountInFolder) h rfl, query_notSupported (q := .folderCount) h rfl⟩

end
end

section
/-! PROOFS. Transmitting (spec/43_transmit.md): what `transmit` does when the transport accepts every byte and when it
rejects one, what an idle machine without a request does, and the obligation on the frame that follows a broken one. -/

namespace Sys2Proof.Machine

/-! ### `transmit` on a transport that answers every write (R210, R211, R213) -/

section Transmit

variable {F : Frame} {s : State} {rest : List (Option WriteAnswer)}

/-- After `k` acceptances the loop stands at byte `k`, with the first `k` bytes of the frame on record. -/
theorem transmitOp_accepts (k : Fin 11) (ha : s.writeAnswers = List.replicate k.val (some .accepted) ++ rest) :
    transmitOp F s = txLoop rest { s with
      txframe := F, txidx := k, txActive := true,
      writes := s.writes ++ (F.toList.take k.val).map fun b => (b, .accepted) } := by
  rw [transmitOp, txRun, State.setTx_writeAnswers, ha, txLoop_accepts k.val rest _ (by simp; omega)]
  simp [State.setTx, ha]

theorem exec_transmit_accepted (h : s.txActive = false)
    (ha : s.writeAnswers = List.replicate 10 (some .accepted) ++ rest) :
    exec (.transmit F) s = .next { s with
      txframe := F, txidx := 10, writeAnswers := rest,
      writes := s.writes ++ F.toList.map fun b => (b, .accepted),
      outcomes := s.outcomes ++ [.ok] } := by
  rw [exec_transmit, onTransmitter_idle h, transmitOp_accepts 10 ha, txLoop_done _ _ (by simp)]
  simp [State.setTx, State.setWriteAnswers, State.report, h, List.take_of_length_le]

theorem exec_transmit_rejected {k : Fin 10} (h : s.txActive = false)
    (ha : s.writeAnswers = List.replicate k.val (some .accepted) ++ some .rejected :: rest) :
    exec (.transmit F) s = .next { s with
      txframe := F, txidx := k.castSucc, writeAnswers := rest,
      writes := s.writes ++ ((F.toList.take k.val).map fun b => (b, .accepted)) ++ [(F[k], .rejected)],
      outcomes := s.outcomes ++ [.writeFailure] } := by
  rw [exec_transmit, onTransmitter_idle h, transmitOp_accepts k.castSucc ha, txLoop_rejected _ _ k.isLt]
  simp [State.setTx, State.setWriteAnswers, State.logWrite, State.report, h]

end Transmit

/-! ### The wire: what new writes on record add to the accepted bytes -/

theorem accepted_append_accepted {s t : State} {bytes : List Byte}
    (h : t.writes = s.writes ++ bytes.map fun b => (b, .accepted)) : t.accepted = s.accepted ++ bytes := by
  simp [State.accepted, h, List.filter_map, Function.comp_def]

theorem accepted_append_rejected {s t : State} {bytes : List Byte} {b : Byte}
    (h : t.writes = s.writes ++ (bytes.map fun b => (b, .accepted)) ++ [(b, .rejected)]) :
    t.accepted = s.accepted ++ bytes := by
  simp [State.accepted, h, List.filter_map, Function.comp_def]

/-! ### A machine with nothing to do -/

theorem step_idle {s : State} (h : s.txActive = false) (hc : s.calls = []) : step s = .next s := by
  simp [step, nextMove, nextCall, h, hc]

theorem steps_idle {s : State} (h : s.txActive = false) (hc : s.calls = []) (n : Nat) : steps n s = .next s := by
  induction n with
  | zero => rfl
  | succ n ih => rw [steps_succ n (step_idle h hc), ih]

end Sys2Proof.Machine

section
open Sys2Proof Sys2Proof.Machine

/-- Settles O22: the rejection leaves an idle machine with the accepted prefix on record and no trace of it in what the
next `transmit` reads, so that one runs its whole frame. -/
theorem nextFrameFollowsABrokenPrefix : Obligations.NextFrameFollowsABrokenPrefix := by
  intro F G s k rest h ha
  refine ⟨_, _, exec_transmit_rejected h ha, accepted_append_rejected rfl, fun hc => steps_idle h hc,
    exec_transmit_accepted h rfl, ?_, ?_⟩
  · exact (accepted_append_accepted rfl).trans (congrArg (· ++ G.toList) (accepted_append_rejected rfl))
  · simp

end
end

section
/-! PROOFS. The reassembler (spec/44_reassembler.md): what the rows of an end marker and of a data byte do, and the
obligations on an end marker without room and on data bytes with and without room. -/

namespace Sys2Proof.Machine

/-! ### The rows of an end marker and of a data byte (R235 to R238) -/

theorem exec_rxEnd (s : State) : exec .rxEnd s = .next (rxEndOp s) := rfl

/-- A byte that is neither marker has the class DATA, so its row is the reception of a data byte. -/
theorem exec_rxData {b : Byte} (hs : b ≠ 0x7E) (he : b ≠ 0xEF) (s : State) :
    exec (.rxData b) s = .next (rxDataOp b s) := by
  have h := exec_rxByte b s
  rwa [decodeRxByte_data hs he, if_neg hs, if_neg he] at h

/-! ### The room that a cursor leaves -/

theorem cursor_lt_of_castSucc {s : State} {c : Fin 10} (h : s.cursor = c.castSucc) : s.cursor.val < 10 := by
  simp [h]

theorem cursor_full {s : State} (h : s.cursor = 10) : ¬ s.cursor.val < 10 := by
  simp [h]

end Sys2Proof.Machine

section
open Sys2Proof Sys2Proof.Machine

/-- Settles O28: at cursor 10 there is no room for the marker, so it is only consumed and reported. -/
theorem endMarkerWithoutRoomOverruns : Obligations.EndMarkerWithoutRoomOverruns := by
  intro s h
  rw [exec_rxEnd, rxEndOp_full (cursor_full h)]

/-- Settles O29: every cursor below 10 leaves room, 0 as well, so the byte is stored at the cursor. -/
theorem dataByteWithRoomIsStored : Obligations.DataByteWithRoomIsStored := by
  intro s b c hs he h
  rw [exec_rxData hs he, rxDataOp_room b (cursor_lt_of_castSucc h)]
  simp [h, Fin.succ]

/-- Settles O30: at cursor 10 there is no room for the byte, so it is only consumed and reported as Incomplete. -/
theorem dataByteWithoutRoomIsDropped : Obligations.DataByteWithoutRoomIsDropped := by
  intro s b hs he h
  rw [exec_rxData hs he, rxDataOp_full b (cursor_full h)]

end
end

section
/-! PROOFS. The two agents apart (spec/10_state.md section 5): what a row of the reassembler computes from `buf`, `cursor` and
the answer, what the transmitter leaves alone, what a step does to the reassembler, and the invariants R34 and R32. -/

namespace Sys2Proof.Machine

/-! ### What an `rx_step` computes (R232 to R238) -/

/-- `buf` after a received byte (R234 to R238). -/
def rxByteBuf (b : Byte) (buf : Frame) (c : Fin 11) : Frame :=
  if b = 0x7E then #v[0x7E, 0x00, 0x00, 0x00, 0x00, 0x00, 0x00, 0x00, 0x00, 0x00]
  else if h : c.val < 10 then buf.set c.val b else buf

/-- `cursor` after a received byte (R242). -/
def rxByteCursor (b : Byte) (c : Fin 11) : Fin 11 := if b = 0x7E then 1 else ⟨min 10 (c.val + 1), by omega⟩

/-- The outcome of a received byte (R234 to R238). -/
def rxByteResult (b : Byte) (buf : Frame) (c : Fin 11) : Result :=
  if b = 0xEF then (if c.val < 10 then .complete (rxByteBuf b buf c) else .overrun) else .incomplete

/-- `buf` after an `rx_step` with this answer. -/
def ReadAnswer.bufAfter : ReadAnswer → Frame → Fin 11 → Frame
  | .byte b, buf, c => rxByteBuf b buf c
  | .noData, buf, _ => buf
  | .readError, buf, _ => buf

/-- `cursor` after an `rx_step` with this answer. -/
def ReadAnswer.cursorAfter : ReadAnswer → Fin 11 → Fin 11
  | .byte b, c => rxByteCursor b c
  | .noData, c => c
  | .readError, c => c

/-- The bytes an `rx_step` with this answer takes from the transport. -/
def ReadAnswer.taken : ReadAnswer → List Byte
  | .byte b => [b]
  | .noData => []
  | .readError => []

/-- The outcome of an `rx_step` with this answer. -/
def ReadAnswer.result : ReadAnswer → Frame → Fin 11 → Result
  | .byte b, buf, c => rxByteResult b buf c
  | .noData, _, _ => .noData
  | .readError, _, _ => .readFailure

/-- The whole effect of an `rx_step`: a function of `buf`, `cursor` and the answer, written into four fields. -/
def rxAnswerOp (a : ReadAnswer) (s : State) : State :=
  { s with
    buf := a.bufAfter s.buf s.cursor, cursor := a.cursorAfter s.cursor, consumed := s.consumed ++ a.taken,
    outcomes := s.outcomes ++ [a.result s.buf s.cursor] }

theorem rxAnswerOp_byte (b : Byte) (s : State) :
    rxAnswerOp (.byte b) s = { s with
      buf := rxByteBuf b s.buf s.cursor, cursor := rxByteCursor b s.cursor, consumed := s.consumed ++ [b],
      outcomes := s.outcomes ++ [rxByteResult b s.buf s.cursor] } := rfl

theorem rxAnswerOp_noData (s : State) : rxAnswerOp .noData s = s.report .noData := by
  simp [rxAnswerOp, State.report, ReadAnswer.bufAfter, ReadAnswer.cursorAfter, ReadAnswer.taken, ReadAnswer.result]

theorem rxAnswerOp_readError (s : State) : rxAnswerOp .readError s = s.report .readFailure := by
  simp [rxAnswerOp, State.report, ReadAnswer.bufAfter, ReadAnswer.cursorAfter, ReadAnswer.taken, ReadAnswer.result]

section Byte

variable {b : Byte} {c : Fin 11}

theorem rxByteBuf_room (hb : b ≠ 0x7E) (buf : Frame) (h : c.val < 10) : rxByteBuf b buf c = buf.set c.val b := by
  rw [rxByteBuf, if_neg hb, dif_pos h]

theorem rxByteBuf_full (hb : b ≠ 0x7E) (buf : Frame) (h : ¬ c.val < 10) : rxByteBuf b buf c = buf := by
  rw [rxByteBuf, if_neg hb, dif_neg h]

theorem rxByteCursor_val (b : Byte) (c : Fin 11) :
    (rxByteCursor b c).val = if b = 0x7E then 1 else min 10 (c.val + 1) := by
  unfold rxByteCursor; split <;> rfl

theorem rxByteCursor_room (hb : b ≠ 0x7E) (h : c.val < 10) : rxByteCursor b c = ⟨c.val + 1, by omega⟩ := by
  ext
  rw [rxByteCursor_val, if_neg hb]
  exact Nat.min_eq_right h

theorem rxByteCursor_full (hb : b ≠ 0x7E) (h : ¬ c.val < 10) : rxByteCursor b c = c := by
  ext
  rw [rxByteCursor_val, if_neg hb]
  omega

theorem rxByteResult_room (hb : b ≠ 0x7E) (buf : Frame) (h : c.val < 10) :
    rxByteResult b buf c = if b = 0xEF then .complete (buf.set c.val b) else .incomplete := by
  rw [rxByteResult, if_pos h, rxByteBuf_room hb buf h]

theorem rxByteResult_full (buf : Frame) (h : ¬ c.val < 10) :
    rxByteResult b buf c = if b = 0xEF then .overrun else .incomplete := by
  rw [rxByteResult, if_neg h]

end Byte

theorem rxByteOp_eq (b : Byte) (s : State) : rxByteOp b s = rxAnswerOp (.byte b) s := by
  rw [rxAnswerOp_byte]
  by_cases hb : b = 0x7E
  · subst hb; rfl
  · by_cases h : s.cursor.val < 10
    · rw [rxByteOp_room hb h, rxByteBuf_room hb _ h, rxByteCursor_room hb h, rxByteResult_room hb _ h]
    · rw [rxByteOp_full hb h, rxByteBuf_full hb _ h, rxByteCursor_full hb h, rxByteResult_full _ h]

theorem exec_readAnswer_eq (a : ReadAnswer) (s : State) : exec a.instr s = .next (rxAnswerOp a s) := by
  cases a with
  | byte b => rw [exec_byte, rxByteOp_eq]
  | noData => rw [rxAnswerOp_noData]; rfl
  | readError => rw [rxAnswerOp_readError]; rfl

@[simp] theorem rxByteBuf_start (buf : Frame) (c : Fin 11) :
    rxByteBuf 0x7E buf c = #v[0x7E, 0x00, 0x00, 0x00, 0x00, 0x00, 0x00, 0x00, 0x00, 0x00] := rfl

/-- A byte other than a start marker is written at `cursor`, where there is room, and nowhere else. -/
theorem rxByteBuf_get {b : Byte} (hb : b ≠ 0x7E) (buf : Frame) (c : Fin 11) (i : Fin 10) :
    (rxByteBuf b buf c)[i] = if i.val = c.val then b else buf[i] := by
  have := i.isLt
  by_cases h : c.val < 10
  · simp [rxByteBuf_room hb buf h, Vector.getElem_set, eq_comm]
  · rw [rxByteBuf_full hb buf h, if_neg (by omega)]

/-! ### What an operation of the transmitter leaves alone (R31) -/

/-- `t` has the reassembler, the caller and the read side of `s`. -/
structure TxFrame (s t : State) : Prop where
  buf : t.buf = s.buf
  cursor : t.cursor = s.cursor
  calls : t.calls = s.calls
  readAnswers : t.readAnswers = s.readAnswers
  consumed : t.consumed = s.consumed

theorem report_txFrame (s : State) (r : Result) : TxFrame s (s.report r) := ⟨rfl, rfl, rfl, rfl, rfl⟩

theorem txRun_txFrame (s : State) : TxFrame s (txRun s) := by
  obtain ⟨hbuf, hcursor, -, hcalls, hread, hconsumed⟩ := txLoop_frame s.writeAnswers s
  exact ⟨hbuf, hcursor, hcalls, hread, hconsumed⟩

theorem transmitOp_txFrame (F : Frame) (s : State) : TxFrame s (transmitOp F s) := by
  obtain ⟨hbuf, hcursor, hcalls, hread, hconsumed⟩ := txRun_txFrame (s.setTx F 0 true)
  exact ⟨hbuf, hcursor, hcalls, hread, hconsumed⟩

theorem sendOp_some {v : Message} {F : Frame} (hF : encodeMessage v = some F) (s : State) :
    sendOp v s = transmitOp F s := by simp [sendOp, hF]

/-- `send` transmits the frame of its message, or only reports that there is none (R214). -/
theorem sendOp_cases (v : Message) (s : State) :
    (∃ F, encodeMessage v = some F ∧ sendOp v s = transmitOp F s) ∨ sendOp v s = s.report .notSupported := by
  cases hF : encodeMessage v with
  | some F => exact .inl ⟨F, rfl, sendOp_some hF s⟩
  | none => exact .inr (sendOp_none hF s)

theorem sendOp_txFrame (v : Message) (s : State) : TxFrame s (sendOp v s) := by
  rcases sendOp_cases v s with ⟨F, -, h⟩ | h <;> rw [h]
  · exact transmitOp_txFrame F s
  · exact report_txFrame s _

theorem encodeOp_txFrame {v : Message} {s t : State} (h : encodeOp v s = .next t) : TxFrame s t := by
  obtain ⟨-, r, rfl, -, -⟩ := encodeOp_next h
  exact report_txFrame s r

/-! ### What a step does to the reassembler -/

/-- A step leaves the reassembler alone, or takes it through one received byte, or creates it anew. -/
theorem step_rx_cases {s t : State} (h : step s = .next t) :
    (t.buf = s.buf ∧ t.cursor = s.cursor ∧ t.consumed = s.consumed) ∨
    (∃ b, t.buf = rxByteBuf b s.buf s.cursor ∧ t.cursor = rxByteCursor b s.cursor ∧ t.consumed = s.consumed ++ [b]) ∨
    (s.calls.head? = some .create ∧ t.buf = State.reset.buf ∧ t.cursor = State.reset.cursor ∧
      t.consumed = s.consumed) := by
  have left {s₀ t : State} (h₀ : Taken s s₀) (hf : TxFrame s₀ t) :
      t.buf = s.buf ∧ t.cursor = s.cursor ∧ t.consumed = s.consumed :=
    ⟨hf.buf.trans h₀.buf, hf.cursor.trans h₀.cursor, hf.consumed.trans h₀.consumed⟩
  rcases step_next_cases h with ⟨s₀, h₀, rfl⟩ | ⟨-, rfl⟩ |
    ⟨s₀, h₀, -, ⟨v, hv⟩ | ⟨F, rfl⟩ | ⟨v, rfl⟩⟩ | ⟨s₀, a, h₀, ha⟩ | ⟨s₀, r, h₀, rfl⟩ | ⟨s₀, h₀, hc, rfl⟩
  · exact .inl ⟨h₀.buf, h₀.cursor, h₀.consumed⟩
  · exact .inl (left (Taken.refl s) (txRun_txFrame s))
  · exact .inl (left h₀ (encodeOp_txFrame hv))
  · exact .inl (left h₀ (transmitOp_txFrame F s₀))
  · exact .inl (left h₀ (sendOp_txFrame v s₀))
  · rw [exec_readAnswer_eq] at ha
    cases ha
    cases a with
    | byte b =>
      refine .inr (.inl ⟨b, ?_⟩)
      rw [rxAnswerOp_byte, ← h₀.buf, ← h₀.cursor, ← h₀.consumed]
      exact ⟨rfl, rfl, rfl⟩
    | noData => rw [rxAnswerOp_noData]; exact .inl (left h₀ (report_txFrame s₀ _))
    | readError => rw [rxAnswerOp_readError]; exact .inl (left h₀ (report_txFrame s₀ _))
  · exact .inl (left h₀ (report_txFrame s₀ r))
  · exact .inr (.inr ⟨hc, rfl, rfl, h₀.consumed⟩)

/-! ### The buffer is clear from `cursor` on (R34) -/

theorem tailClear_of_same_rx {s t : State} (hb : t.buf = s.buf) (hc : t.cursor = s.cursor) (h : s.TailClear) :
    t.TailClear := by
  intro i hi
  rw [hb]
  exact h i (hc ▸ hi)

theorem reset_tailClear : State.reset.TailClear := fun i _ => State.reset_buf_get i.val i.isLt

/-- A received byte is written at `cursor`, which then stands behind it. -/
theorem tailClear_of_rxByte {s t : State} {b : Byte} (hb : t.buf = rxByteBuf b s.buf s.cursor)
    (hc : t.cursor = rxByteCursor b s.cursor) (h : s.TailClear) : t.TailClear := by
  intro i hi
  have := i.isLt
  rw [hc, rxByteCursor_val] at hi
  rw [hb]
  by_cases hs : b = 0x7E
  · subst hs
    rw [if_pos rfl] at hi
    rw [rxByteBuf_start]
    revert hi
    revert i
    decide
  · rw [if_neg hs] at hi
    rw [rxByteBuf_get hs, if_neg (by omega)]
    exact h i (by omega)

/-! ### The record of a `transmit` in progress (R25, R32) -/

/-- The last `txidx` writes on record are the bytes `txframe[0 .. txidx-1]`, in order and accepted. -/
def State.SentOnRecord (s : State) : Prop :=
  ((s.txframe.toList.take s.txidx.val).map fun b => (b, WriteAnswer.accepted)) <:+ s.writes

/-- One more accepted byte, put on record, extends what is on record of the frame by that byte. -/
theorem State.SentOnRecord.accept {s : State} (hs : s.SentOnRecord) (h : s.txidx.val < 10) :
    ((s.logWrite s.txframe[s.txidx.val] .accepted).setTx s.txframe ⟨s.txidx.val + 1, by omega⟩
      s.txActive).SentOnRecord := by
  obtain ⟨before, hw⟩ := hs
  refine ⟨before, ?_⟩
  simp only [State.setTx_txframe, State.setTx_txidx, State.setTx_writes, State.logWrite_writes]
  rw [← hw, List.take_succ_eq_append_getElem (by simpa using h)]
  simp

/-- Where the loop stops with the `transmit` still in progress, bytes are left to send and those sent are on record. -/
theorem txLoop_txSound (as : List (Option WriteAnswer)) (s : State) (hs : s.SentOnRecord) : (txLoop as s).TxSound := by
  induction as generalizing s with
  | nil =>
    by_cases h : s.txidx.val < 10
    · rw [txLoop_nil s h]; exact fun _ => ⟨h, hs⟩
    · rw [txLoop_done s _ h]; exact fun ha => nomatch ha
  | cons a rest ih =>
    by_cases h : s.txidx.val < 10
    · match a with
      | some .accepted => rw [txLoop_accepted s rest h]; exact ih _ (State.SentOnRecord.accept hs h)
      | some .rejected => rw [txLoop_rejected s rest h]; exact fun ha => nomatch ha
      | none => rw [txLoop_wait s rest h]; exact fun _ => ⟨h, hs⟩
    · rw [txLoop_done s _ h]; exact fun ha => nomatch ha

theorem transmitOp_txSound (F : Frame) (s : State) : (transmitOp F s).TxSound :=
  txLoop_txSound _ _ (List.nil_suffix)

theorem txSound_of_idle {s : State} (h : s.txActive = false) : s.TxSound := by simp [State.TxSound, h]

/-- The invariant speaks of the transmitter's registers and the writes alone. -/
theorem txSound_of_same_tx {s t : State} (hf : t.txframe = s.txframe) (hi : t.txidx = s.txidx)
    (ha : t.txActive = s.txActive) (hw : t.writes = s.writes) (h : s.TxSound) : t.TxSound := by
  simpa only [State.TxSound, hf, hi, ha, hw] using h

end Sys2Proof.Machine

section
open Sys2Proof Sys2Proof.Machine

/-- Settles O35: a step leaves `buf` and `cursor`, or takes them through one received byte, or resets them. -/
theorem stepKeepsTheBufferTailClear : Obligations.StepKeepsTheBufferTailClear := by
  intro s t hs h
  rcases step_rx_cases h with ⟨hb, hc, -⟩ | ⟨b, hb, hc, -⟩ | ⟨-, hb, hc, -⟩
  · exact tailClear_of_same_rx hb hc hs
  · exact tailClear_of_rxByte hb hc hs
  · exact tailClear_of_same_rx hb hc reset_tailClear

/-- Settles O37: only the loop writes the transmitter's registers while a `transmit` is in progress, and it starts from
a state with the bytes sent so far on record; every other step leaves them or leaves no `transmit` in progress. -/
theorem stepKeepsTheTransmitSound : Obligations.StepKeepsTheTransmitSound := by
  intro s t hs h
  rcases step_next_cases h with ⟨s₀, h₀, rfl⟩ | ⟨ha, rfl⟩ |
    ⟨s₀, h₀, hi, ⟨v, hv⟩ | ⟨F, rfl⟩ | ⟨v, rfl⟩⟩ | ⟨s₀, a, h₀, hx⟩ | ⟨s₀, r, h₀, rfl⟩ | ⟨s₀, h₀, -, rfl⟩
  · exact txSound_of_same_tx h₀.txframe h₀.txidx h₀.txActive h₀.writes hs
  · exact txLoop_txSound _ s (hs ha).2
  · obtain ⟨hi₀, r, rfl, -, -⟩ := encodeOp_next hv
    exact txSound_of_idle hi₀
  · exact transmitOp_txSound F s₀
  · rcases sendOp_cases v s₀ with ⟨F, -, hF⟩ | hn
    · exact hF ▸ transmitOp_txSound F s₀
    · exact hn ▸ txSound_of_idle (h₀.txActive.trans hi)
  · have hf := exec_readAnswer_frame hx
    exact txSound_of_same_tx (hf.txframe.trans h₀.txframe) (hf.txidx.trans h₀.txidx)
      (hf.txActive.trans h₀.txActive) (hf.writes.trans h₀.writes) hs
  · exact txSound_of_same_tx h₀.txframe h₀.txidx h₀.txActive h₀.writes hs
  · exact txSound_of_idle rfl

/-- Settles O36: reset has a clear buffer and no `transmit` in progress. -/
theorem resetIsSound : Obligations.ResetIsSound := ⟨reset_tailClear, txSound_of_idle rfl⟩

/-- Settles O32: the two cases are the steps that take no byte and the steps that take one. -/
theorem cursorFollowsTheReceivedByte : Obligations.CursorFollowsTheReceivedByte := by
  intro s t h
  rcases step_rx_cases h with ⟨hb, hc, ht⟩ | ⟨b, -, hc, ht⟩ | ⟨hcreate, -, -, ht⟩
  · exact .inl ⟨ht, fun _ => ⟨hc, hb⟩⟩
  · exact .inr ⟨b, ht, by rw [hc, rxByteCursor_val]⟩
  · exact .inl ⟨ht, fun hne => absurd hcreate hne⟩

end
end

section
/-! PROOFS. Patterns and frames (spec/30_encoding.md, spec/opcode_table.json): the rows of the table are the frames of
`wireFrame`, the decoder reads from such a frame the clamped command, and it accepts no other ten bytes. -/

namespace Sys2Proof

/-! ### The instructions by kind -/

/-- Every instruction is the row of a message, TRANSMIT, SEND or a row of `rx_step`. -/
theorem Instr.cases_rows (i : Instr) :
    (∃ v : Message, i = v.instr) ∨ (∃ F, i = .transmit F) ∨ (∃ v, i = .send v) ∨ i = .rxStart ∨ i = .rxEnd ∨
      (∃ b, i = .rxData b) ∨ i = .rxNoData ∨ i = .rxReadError := by
  cases i with
  | next => exact .inl ⟨.command .next, rfl⟩
  | previous => exact .inl ⟨.command .previous, rfl⟩
  | specifyTrack t => exact .inl ⟨.command (.specifyTrack t), rfl⟩
  | increaseVolume => exact .inl ⟨.command .increaseVolume, rfl⟩
  | decreaseVolume => exact .inl ⟨.command .decreaseVolume, rfl⟩
  | specifyVolume v => exact .inl ⟨.command (.specifyVolume v), rfl⟩
  | specifyEqualizer e => exact .inl ⟨.command (.specifyEqualizer e), rfl⟩
  | specifyPlaybackMode m => exact .inl ⟨.command (.specifyPlaybackMode m), rfl⟩
  | standby => exact .inl ⟨.command .standby, rfl⟩
  | normalWorking => exact .inl ⟨.command .normalWorking, rfl⟩
  | resetModule => exact .inl ⟨.command .resetModule, rfl⟩
  | playback => exact .inl ⟨.command .playback, rfl⟩
  | pause => exact .inl ⟨.command .pause, rfl⟩
  | specifyFolder f k => exact .inl ⟨.command (.specifyFolder f k), rfl⟩
  | specifyMp3Track t => exact .inl ⟨.command (.specifyMp3Track t), rfl⟩
  | specifyAdvertisement t => exact .inl ⟨.command (.specifyAdvertisement t), rfl⟩
  | stopAdvertisement => exact .inl ⟨.command .stopAdvertisement, rfl⟩
  | stop => exact .inl ⟨.command .stop, rfl⟩
  | queryVolume => exact .inl ⟨.query .volume, rfl⟩
  | queryStatus => exact .inl ⟨.query .status, rfl⟩
  | queryEqualizer => exact .inl ⟨.query .equalizer, rfl⟩
  | queryPlaybackMode => exact .inl ⟨.query .playbackMode, rfl⟩
  | querySoftwareVersion => exact .inl ⟨.query .softwareVersion, rfl⟩
  | queryFileCountInFolder => exact .inl ⟨.query .fileCountInFolder, rfl⟩
  | queryFolderCount => exact .inl ⟨.query .folderCount, rfl⟩
  | transmit F => exact .inr (.inl ⟨F, rfl⟩)
  | send v => exact .inr (.inr (.inl ⟨v, rfl⟩))
  | rxStart => simp
  | rxEnd => simp
  | rxData b => simp
  | rxNoData => simp
  | rxReadError => simp

theorem Command.instr_wellFormed (c : Command) : c.instr.wellFormed = c.wellFormed := by cases c <;> rfl

theorem Command.instr_canonical (c : Command) : c.instr.canonical = c.clamped.instr := by cases c <;> rfl

/-- The command whose row an instruction is. -/
def Instr.command? : Instr → Option Command
  | .next => some .next
  | .previous => some .previous
  | .specifyTrack t => some (.specifyTrack t)
  | .increaseVolume => some .increaseVolume
  | .decreaseVolume => some .decreaseVolume
  | .specifyVolume v => some (.specifyVolume v)
  | .specifyEqualizer e => some (.specifyEqualizer e)
  | .specifyPlaybackMode m => some (.specifyPlaybackMode m)
  | .standby => some .standby
  | .normalWorking => some .normalWorking
  | .resetModule => some .resetModule
  | .playback => some .playback
  | .pause => some .pause
  | .specifyFolder f k => some (.specifyFolder f k)
  | .specifyMp3Track t => some (.specifyMp3Track t)
  | .specifyAdvertisement t => some (.specifyAdvertisement t)
  | .stopAdvertisement => some .stopAdvertisement
  | .stop => some .stop
  | _ => none

theorem Command.instr_command? (c : Command) : c.instr.command? = some c := by cases c <;> rfl

theorem Command.instr_injective {c d : Command} (h : c.instr = d.instr) : c = d :=
  Option.some_injective _ (by rw [← Command.instr_command? c, h, Command.instr_command? d])

/-! ### Operands in their domain -/

theorem clamp_zero_eq_ofNat {w : Nat} (v hi : BitVec w) : clamp v 0 hi = BitVec.ofNat w (min v.toNat hi.toNat) := by
  rw [← clamp_zero_toNat, BitVec.ofNat_toNat, BitVec.setWidth_eq]

theorem clamp_volume_of_wellFormed {v : Byte} (h : (Command.specifyVolume v).wellFormed = true) :
    clamp v config.volumeMin config.volumeMax = v := by
  simpa [Command.clamped] using Command.clamped_of_wellFormed h

theorem clamp_folder_of_wellFormed {f k : Byte} (h : (Command.specifyFolder f k).wellFormed = true) :
    clamp f config.folderMin config.folderMax = f := by
  simpa [Command.clamped] using Command.clamped_of_wellFormed h

/-- The domain of a track is that of SpecifyMp3Track and of SpecifyAdvertisement alike. -/
theorem clamp_track_of_wellFormed {t : Half} (h : (Command.specifyMp3Track t).wellFormed = true) :
    clamp t config.trackMin config.trackMax = t := by
  simpa [Command.clamped] using Command.clamped_of_wellFormed h

/-! ### The decoder on a row's own parameter bytes -/

theorem decodeBody_ident (row : FrameRow) (p5 p6 : Byte) : decodeBody row.ident p5 p6 = row.read p5 p6 := by
  cases row <;> rfl

theorem acceptIf_true {ok : Bool} (h : ok = true) (i : Instr) : acceptIf ok i = .ok i := by simp [acceptIf, h]

theorem acceptCode_some {α : Type} {m : Option α} {a : α} (h : m = some a) (mk : α → Instr) :
    acceptCode 0x00 m mk = .ok (mk a) := by
  subst h; rfl

/-- The identifier and the parameter bytes of a command decode to the command with its operands clamped. -/
theorem decodeBody_command (c : Command) :
    decodeBody c.id c.params.first c.params.second = .ok c.clamped.instr := by
  have hwf := Command.wellFormed_clamped c
  cases c with
  | specifyTrack t =>
    exact (decodeBody_ident .specifyTrack _ _).trans
      (congrArg (fun u => Except.ok (Instr.specifyTrack u)) (joinBytes_hi8_lo8 t))
  | specifyVolume v => exact (decodeBody_ident .specifyVolume _ _).trans (acceptIf_true hwf _)
  | specifyEqualizer e =>
    exact (decodeBody_ident .specifyEqualizer _ _).trans (acceptCode_some (Equalizer.ofByte_code e) _)
  | specifyPlaybackMode m =>
    exact (decodeBody_ident .specifyPlaybackMode _ _).trans (acceptCode_some (PlaybackMode.ofByte_code m) _)
  | specifyFolder f k => exact (decodeBody_ident .specifyFolder _ _).trans (acceptIf_true hwf _)
  | specifyMp3Track t =>
    refine (decodeBody_ident .specifyMp3Track _ _).trans ?_
    simp only [FrameRow.read, Command.params, Command.clamped, ParamForm.first, ParamForm.second, joinBytes_hi8_lo8]
    exact acceptIf_true hwf _
  | specifyAdvertisement t =>
    refine (decodeBody_ident .specifyAdvertisement _ _).trans ?_
    simp only [FrameRow.read, Command.params, Command.clamped, ParamForm.first, ParamForm.second, joinBytes_hi8_lo8]
    exact acceptIf_true hwf _
  | next => rfl
  | previous => rfl
  | increaseVolume => rfl
  | decreaseVolume => rfl
  | standby => rfl
  | normalWorking => rfl
  | resetModule => rfl
  | playback => rfl
  | pause => rfl
  | stopAdvertisement => rfl
  | stop => rfl

/-! ### What a row reads is a well-formed command that carries the bytes read -/

/-- `i` is a well-formed command whose frame has this identifier and these parameter bytes. -/
def CarriedBy (id p5 p6 : Byte) (i : Instr) : Prop :=
  ∃ c : Command, i = c.instr ∧ c.wellFormed = true ∧ c.id = id ∧ c.params.first = p5 ∧ c.params.second = p6

/-- A command without operand is read from two zero bytes. -/
theorem carriedBy_of_acceptIf_p0 {c : Command} {p5 p6 : Byte} {i : Instr} (hwf : c.wellFormed = true)
    (hp : c.params = .p0) (h : acceptIf (p5 == 0x00 && p6 == 0x00) c.instr = .ok i) : CarriedBy c.id p5 p6 i := by
  obtain ⟨hz, rfl⟩ := acceptIf_ok h
  simp only [Bool.and_eq_true, beq_iff_eq] at hz
  obtain ⟨rfl, rfl⟩ := hz
  exact ⟨c, rfl, hwf, rfl, by rw [hp]; rfl, by rw [hp]; rfl⟩

theorem FrameRow.read_carriedBy {row : FrameRow} {p5 p6 : Byte} {i : Instr} (h : row.read p5 p6 = .ok i) :
    CarriedBy row.ident p5 p6 i := by
  cases row with
  | next => exact carriedBy_of_acceptIf_p0 (c := .next) rfl rfl h
  | previous => exact carriedBy_of_acceptIf_p0 (c := .previous) rfl rfl h
  | increaseVolume => exact carriedBy_of_acceptIf_p0 (c := .increaseVolume) rfl rfl h
  | decreaseVolume => exact carriedBy_of_acceptIf_p0 (c := .decreaseVolume) rfl rfl h
  | standby => exact carriedBy_of_acceptIf_p0 (c := .standby) rfl rfl h
  | normalWorking => exact carriedBy_of_acceptIf_p0 (c := .normalWorking) rfl rfl h
  | resetModule => exact carriedBy_of_acceptIf_p0 (c := .resetModule) rfl rfl h
  | playback => exact carriedBy_of_acceptIf_p0 (c := .playback) rfl rfl h
  | pause => exact carriedBy_of_acceptIf_p0 (c := .pause) rfl rfl h
  | stopAdvertisement => exact carriedBy_of_acceptIf_p0 (c := .stopAdvertisement) rfl rfl h
  | stop => exact carriedBy_of_acceptIf_p0 (c := .stop) rfl rfl h
  | specifyTrack =>
    cases h
    exact ⟨.specifyTrack (joinBytes p5 p6), rfl, rfl, rfl, hi8_joinBytes p5 p6, lo8_joinBytes p5 p6⟩
  | specifyVolume =>
    obtain ⟨hok, rfl⟩ := acceptIf_ok h
    obtain ⟨hz, hwf⟩ := Bool.and_eq_true _ _ ▸ hok
    exact ⟨.specifyVolume p6, rfl, hwf, rfl, (beq_iff_eq.1 hz).symm, clamp_volume_of_wellFormed hwf⟩
  | specifyEqualizer =>
    obtain ⟨e, he, rfl, rfl⟩ := acceptCode_ok h
    exact ⟨.specifyEqualizer e, rfl, rfl, rfl, rfl, Equalizer.code_of_ofByte he⟩
  | specifyPlaybackMode =>
    obtain ⟨m, hm, rfl, rfl⟩ := acceptCode_ok h
    exact ⟨.specifyPlaybackMode m, rfl, rfl, rfl, rfl, PlaybackMode.code_of_ofByte hm⟩
  | specifyFolder =>
    obtain ⟨hwf, rfl⟩ := acceptIf_ok h
    exact ⟨.specifyFolder p5 p6, rfl, hwf, rfl, clamp_folder_of_wellFormed hwf, rfl⟩
  | specifyMp3Track =>
    obtain ⟨hwf, rfl⟩ := acceptIf_ok h
    have hc := clamp_track_of_wellFormed hwf
    exact ⟨.specifyMp3Track (joinBytes p5 p6), rfl, hwf, rfl, (congrArg hi8 hc).trans (hi8_joinBytes p5 p6),
      (congrArg lo8 hc).trans (lo8_joinBytes p5 p6)⟩
  | specifyAdvertisement =>
    obtain ⟨hwf, rfl⟩ := acceptIf_ok h
    have hc := clamp_track_of_wellFormed hwf
    exact ⟨.specifyAdvertisement (joinBytes p5 p6), rfl, hwf, rfl, (congrArg hi8 hc).trans (hi8_joinBytes p5 p6),
      (congrArg lo8 hc).trans (lo8_joinBytes p5 p6)⟩

theorem decodeBody_carriedBy {id p5 p6 : Byte} {i : Instr} (h : decodeBody id p5 p6 = .ok i) : CarriedBy id p5 p6 i := by
  obtain ⟨row, rfl, hr⟩ := decodeBody_row h
  exact row.read_carriedBy hr

/-- A byte decodes to a well-formed row of `rx_step` whose pattern is that byte. -/
theorem encode_decodeRxByte (b : Byte) : encode (decodeRxByte b) = some [b] ∧ (decodeRxByte b).wellFormed = true := by
  by_cases hs : b = 0x7E
  · subst hs; exact ⟨rfl, rfl⟩
  · by_cases he : b = 0xEF
    · subst he; exact ⟨rfl, rfl⟩
    · rw [decodeRxByte_data hs he]
      exact ⟨rfl, by simpa [Instr.wellFormed, isDataByte] using ⟨hs, he⟩⟩

namespace Machine

/-! ### The frame in plain integers (R81, R93) -/

theorem wireFrame_checksum (id p5 p6 : Byte) :
    256 * (wireFrame id p5 p6)[7].toNat + (wireFrame id p5 p6)[8].toNat =
      0xFEFB - id.toNat - p5.toNat - p6.toNat := by
  simp only [wireFrame, Vector.getElem_mk, List.getElem_toArray, List.getElem_cons_succ, List.getElem_cons_zero,
    BitVec.toNat_ofNat]
  omega

/-- The checksum bytes are those that make the sum of R93 vanish. -/
theorem wireFrame_of_checksumHolds {id p5 p6 f7 f8 : Byte} (h : checksumHolds 0xFF 0x06 id 0x00 p5 p6 f7 f8 = true) :
    [0x7E, 0xFF, 0x06, id, 0x00, p5, p6, f7, f8, 0xEF] = (wireFrame id p5 p6).toList := by
  have := id.isLt; have := p5.isLt; have := p6.isLt; have := f7.isLt; have := f8.isLt
  have hsum : 256 * f7.toNat + f8.toNat = 0xFEFB - id.toNat - p5.toNat - p6.toNat := by
    simp only [checksumHolds, BitVec.reduceToNat, beq_iff_eq] at h
    omega
  have h7 : f7 = BitVec.ofNat 8 ((0xFEFB - id.toNat - p5.toNat - p6.toNat) / 256) := by
    apply BitVec.eq_of_toNat_eq
    rw [BitVec.toNat_ofNat]
    omega
  have h8 : f8 = BitVec.ofNat 8 ((0xFEFB - id.toNat - p5.toNat - p6.toNat) % 256) := by
    apply BitVec.eq_of_toNat_eq
    rw [BitVec.toNat_ofNat]
    omega
  rw [h7, h8]
  rfl

/-- A frame of `wireFrame` passes every check of the decoder, so its body decides. -/
theorem decode_wireFrame (id p5 p6 : Byte) : decode (wireFrame id p5 p6).toList = decodeBody id p5 p6 := by
  have hc := wireFrame_checksum id p5 p6
  have hsum : checksumHolds 0xFF 0x06 id 0x00 p5 p6 (wireFrame id p5 p6)[7] (wireFrame id p5 p6)[8] = true := by
    have := id.isLt; have := p5.isLt; have := p6.isLt
    simp only [checksumHolds, BitVec.reduceToNat, beq_iff_eq]
    omega
  exact if_pos hsum

/-- The computed row of the table is the frame of R81. -/
theorem rowWithFields_eq_wireFrame (id p5 p6 : Byte) : rowWithFields id p5 p6 = (wireFrame id p5 p6).toList := by
  have hc : (BitVec.ofNat 16 (0xFEFB - id.toNat - p5.toNat - p6.toNat)).toNat =
      0xFEFB - id.toNat - p5.toNat - p6.toNat := by
    rw [BitVec.toNat_ofNat]
    omega
  simp only [rowWithFields, hi8_eq_ofNat, lo8_eq_ofNat, hc]
  rfl

/-! ### The table's pattern of a message is the machine's frame -/

theorem encode_command (c : Command) : encode c.instr = some (encodeCommand c).toList := by
  rw [encodeCommand_eq_wireFrame]
  cases c with
  | specifyTrack t => exact congrArg some (rowWithFields_eq_wireFrame _ _ _)
  | specifyVolume v => exact congrArg some (rowWithFields_eq_wireFrame _ _ _)
  | specifyEqualizer e => exact congrArg some (rowWithFields_eq_wireFrame _ _ _)
  | specifyPlaybackMode m => exact congrArg some (rowWithFields_eq_wireFrame _ _ _)
  | specifyFolder f k => exact congrArg some (rowWithFields_eq_wireFrame _ _ _)
  | specifyMp3Track t => exact congrArg some (rowWithFields_eq_wireFrame _ _ _)
  | specifyAdvertisement t => exact congrArg some (rowWithFields_eq_wireFrame _ _ _)
  | next => rfl
  | previous => rfl
  | increaseVolume => rfl
  | decreaseVolume => rfl
  | standby => rfl
  | normalWorking => rfl
  | resetModule => rfl
  | playback => rfl
  | pause => rfl
  | stopAdvertisement => rfl
  | stop => rfl

theorem encode_query (q : Query) : encode q.instr = (encodeQuery q).map Vector.toList := by cases q <;> rfl

theorem encode_message (v : Message) : encode v.instr = (encodeMessage v).map Vector.toList := by
  cases v with
  | command c => exact encode_command c
  | query q => exact encode_query q

/-- The frame of a command decodes to the command with its operands clamped. -/
theorem decode_encodeCommand (c : Command) : decode (encodeCommand c).toList = .ok c.clamped.instr := by
  rw [encodeCommand_eq_wireFrame, decode_wireFrame, decodeBody_command]

/-- Ten bytes that decode are the frame of the well-formed command they decode to. -/
theorem decodeFrame_eq_encodeCommand {f0 f1 f2 f3 f4 f5 f6 f7 f8 f9 : Byte} {i : Instr}
    (h : decodeFrame f0 f1 f2 f3 f4 f5 f6 f7 f8 f9 = .ok i) :
    ∃ c : Command, i = c.instr ∧ c.wellFormed = true ∧
      [f0, f1, f2, f3, f4, f5, f6, f7, f8, f9] = (encodeCommand c).toList := by
  obtain ⟨rfl, rfl, rfl, rfl, rfl, hsum, hbody⟩ := decodeFrame_ok h
  obtain ⟨c, hi, hwf, hid, h5, h6⟩ := decodeBody_carriedBy hbody
  refine ⟨c, hi, hwf, ?_⟩
  rw [encodeCommand_eq_wireFrame, hid, h5, h6]
  exact wireFrame_of_checksumHolds hsum

/-- Two commands have one frame exactly when they agree after clamping (R170): the frame decodes to the clamped command. -/
theorem encodeCommand_eq_iff {c d : Command} : encodeCommand c = encodeCommand d ↔ c.clamped = d.clamped := by
  constructor
  · intro h
    have hd := decode_encodeCommand d
    rw [← h, decode_encodeCommand c] at hd
    exact Command.instr_injective (Except.ok.inj hd)
  · intro h
    rw [← encodeCommand_clamped c, h, encodeCommand_clamped d]

end Machine

end Sys2Proof

section
open Sys2Proof Sys2Proof.Machine

/-- Settles O46: a pattern is the frame of a command, that of Next for Query.Volume, or one received byte. -/
theorem decodeReversesEncode : Obligations.DecodeReversesEncode := by
  intro i bytes h
  rcases i.cases_rows with ⟨c | q, rfl⟩ | ⟨F, rfl⟩ | ⟨v, rfl⟩ | rfl | rfl | ⟨b, rfl⟩ | rfl | rfl
  · refine ⟨?_, fun hwf _ => ?_⟩
    · rw [Option.some.inj ((encode_command c).symm.trans h).symm]
      exact c.instr_canonical ▸ decode_encodeCommand c
    · rw [Message.instr, c.instr_canonical, Command.clamped_of_wellFormed (c.instr_wellFormed.symm.trans hwf)]
  · cases q with
    | volume => cases h; exact ⟨decode_encodeCommand .next, fun _ hne => absurd rfl hne⟩
    | status => cases h
    | equalizer => cases h
    | playbackMode => cases h
    | softwareVersion => cases h
    | fileCountInFolder => cases h
    | folderCount => cases h
  · cases h
  · cases h
  · cases h; exact ⟨rfl, fun _ _ => rfl⟩
  · cases h; exact ⟨rfl, fun _ _ => rfl⟩
  · cases h
    refine ⟨rfl, fun hwf _ => ?_⟩
    simp only [Instr.wellFormed, isDataByte, Bool.and_eq_true, bne_iff_ne] at hwf
    exact decodeRxByte_data hwf.1 hwf.2
  · cases h
  · cases h

/-- Settles O45: each word is evaluated by the decoder. -/
theorem writtenWordsDecode : Obligations.WrittenWordsDecode := by
  unfold Obligations.WrittenWordsDecode
  decide

/-- Settles O47: what decodes is one byte, or the frame of a well-formed command. -/
theorem encodeReversesDecode : Obligations.EncodeReversesDecode := by
  intro bytes i h
  unfold decode at h
  split at h
  · cases h
    exact encode_decodeRxByte _
  · obtain ⟨c, rfl, hwf, hbytes⟩ := decodeFrame_eq_encodeCommand h
    exact ⟨hbytes ▸ encode_command c, c.instr_wellFormed.trans hwf⟩
  · cases h

end
end

section
/-! PROOFS. The encoder's values (spec/40_command_model.md, spec/41_encoder_commands.md): the clamp, the enumeration codes, the
frame each command returns and when two commands return the same. -/

namespace Sys2Proof

/-! ### The clamp (R123, R125) -/

theorem clamp_of_lt {w : Nat} {v lo hi : BitVec w} (h : v < lo) : clamp v lo hi = lo := by rw [clamp, if_pos h]

theorem clamp_of_gt {w : Nat} {v lo hi : BitVec w} (hle : lo ≤ hi) (h : hi < v) : clamp v lo hi = hi := by
  rw [clamp, if_neg (BitVec.not_lt.2 (BitVec.le_trans hle (BitVec.le_of_lt h))), if_pos h]

theorem clamp_mono {w : Nat} {v u lo hi : BitVec w} (hle : lo ≤ hi) (h : v ≤ u) : clamp v lo hi ≤ clamp u lo hi := by
  by_cases hv : v < lo
  · rw [clamp_of_lt hv]; exact (clamp_mem u hle).1
  · by_cases hu : hi < u
    · rw [clamp_of_gt hle hu]; exact (clamp_mem v hle).2
    · have hv := BitVec.not_lt.1 hv
      have hu := BitVec.not_lt.1 hu
      rwa [clamp_of_mem hv (BitVec.le_trans h hu), clamp_of_mem (BitVec.le_trans hv h) hu]

/-! ### Enumerations (R130) -/

theorem PeripheralState.code_of_ofByte {b : Byte} {p : PeripheralState} (h : PeripheralState.ofByte b = some p) :
    p.code = b := by
  unfold PeripheralState.ofByte at h
  repeat' split at h
  all_goals cases h
  all_goals exact Eq.symm ‹_›

theorem Device.code_of_ofByte {b : Byte} {d : Device} (h : Device.ofByte b = some d) : d.code = b := by
  unfold Device.ofByte at h
  repeat' split at h
  all_goals cases h
  all_goals exact Eq.symm ‹_›

/-- A byte converts exactly to the member whose code it is. -/
theorem EnumKind.convert_eq_some_iff {k : EnumKind} {b : Byte} {m : Member} :
    k.convert b = some m ↔ m.kind = k ∧ m.code = b := by
  constructor
  · intro h
    cases k <;> obtain ⟨a, ha, rfl⟩ := Option.map_eq_some_iff.1 h
    case playbackMode => exact ⟨rfl, PlaybackMode.code_of_ofByte ha⟩
    case equalizer => exact ⟨rfl, Equalizer.code_of_ofByte ha⟩
    case peripheralState => exact ⟨rfl, PeripheralState.code_of_ofByte ha⟩
    case device => exact ⟨rfl, Device.code_of_ofByte ha⟩
  · rintro ⟨rfl, rfl⟩
    exact EnumKind.convert_code m

/-! A conversion fails exactly on the bytes outside the closed set. -/

theorem PlaybackMode.ofByte_eq_none_iff {b : Byte} : PlaybackMode.ofByte b = none ↔ 0x04 ≤ b := by
  unfold PlaybackMode.ofByte
  split_ifs <;> simp only [false_iff, true_iff] <;> bv_omega

theorem Equalizer.ofByte_eq_none_iff {b : Byte} : Equalizer.ofByte b = none ↔ 0x06 ≤ b := by
  unfold Equalizer.ofByte
  split_ifs <;> simp only [false_iff, true_iff] <;> bv_omega

theorem PeripheralState.ofByte_eq_none_iff {b : Byte} : PeripheralState.ofByte b = none ↔ b = 0x00 ∨ 0x08 ≤ b := by
  unfold PeripheralState.ofByte
  split_ifs <;> simp only [false_iff, true_iff] <;> bv_omega

theorem Device.ofByte_eq_none_iff {b : Byte} : Device.ofByte b = none ↔ b = 0x00 ∨ 0x06 ≤ b := by
  unfold Device.ofByte
  split_ifs <;> simp only [false_iff, true_iff] <;> bv_omega

/-! ### The bytes a command's checksum sums -/

theorem hi8_clamp_track_le (t : Half) : (hi8 (clamp t config.trackMin config.trackMax)).toNat ≤ 39 := by
  rw [hi8_toNat, clamp_track_toNat]
  omega

/-- No command has a larger sum of identifier and parameter bytes than SpecifyTrack(65535). -/
theorem Command.bytes_sum_le (c : Command) : c.id.toNat + c.params.first.toNat + c.params.second.toNat ≤ 513 := by
  have h₁ := c.params.first.isLt
  have h₂ := c.params.second.isLt
  cases c with
  | specifyTrack t =>
    have hid : (Command.specifyTrack t).id.toNat = 3 := rfl
    omega
  | specifyFolder f k =>
    have hid : (Command.specifyFolder f k).id.toNat = 15 := rfl
    have hf : (Command.specifyFolder f k).params.first.toNat = min f.toNat 99 := clamp_zero_toNat f 99
    omega
  | specifyMp3Track t =>
    have hid : (Command.specifyMp3Track t).id.toNat = 18 := rfl
    have ht : (Command.specifyMp3Track t).params.first.toNat ≤ 39 := hi8_clamp_track_le t
    omega
  | specifyAdvertisement t =>
    have hid : (Command.specifyAdvertisement t).id.toNat = 19 := rfl
    have ht : (Command.specifyAdvertisement t).params.first.toNat ≤ 39 := hi8_clamp_track_le t
    omega
  | specifyVolume v =>
    have hid : (Command.specifyVolume v).id.toNat = 6 := rfl
    have hv : (Command.specifyVolume v).params.first.toNat = 0 := rfl
    omega
  | specifyEqualizer e =>
    have hid : (Command.specifyEqualizer e).id.toNat = 7 := rfl
    have hv : (Command.specifyEqualizer e).params.first.toNat = 0 := rfl
    omega
  | specifyPlaybackMode m =>
    have hid : (Command.specifyPlaybackMode m).id.toNat = 8 := rfl
    have hv : (Command.specifyPlaybackMode m).params.first.toNat = 0 := rfl
    omega
  | next => decide
  | previous => decide
  | increaseVolume => decide
  | decreaseVolume => decide
  | standby => decide
  | normalWorking => decide
  | resetModule => decide
  | playback => decide
  | pause => decide
  | stopAdvertisement => decide
  | stop => decide

namespace Machine

/-! ### The frame a message returns -/

/-- Two outcomes that one row returns from one state are the same. -/
theorem Returns.unique {i : Instr} {s : State} {r r' : Result} (h : Returns i s r) (h' : Returns i s r') : r = r' := by
  have ho : s.outcomes ++ [r] = s.outcomes ++ [r'] := congrArg State.outcomes (Host.Outcome.next.inj (h.symm.trans h'))
  simpa using ho

theorem returns_frame_iff {v : Message} {F : Frame} {s : State} (h : s.txActive = false) :
    Returns v.instr s (.frame F) ↔ encodeMessage v = some F := by
  refine ⟨fun hr => ?_, returns_frame h⟩
  cases hv : encodeMessage v with
  | some G => exact congrArg some (Result.frame.inj ((returns_frame h hv).unique hr))
  | none => exact absurd ((returns_notSupported h hv).unique hr) nofun

theorem command_returns_iff {c : Command} {F : Frame} {s : State} (h : s.txActive = false) :
    Returns c.instr s (.frame F) ↔ encodeCommand c = F :=
  (returns_frame_iff (v := .command c) h).trans (Option.some_inj)

theorem exec_send_some {v : Message} {F : Frame} (hF : encodeMessage v = some F) (s : State) :
    exec (.send v) s = exec (.transmit F) s := by
  rw [exec_send, exec_transmit, show sendOp v = transmitOp F from funext (sendOp_some hF)]

end Machine

end Sys2Proof

section
open Sys2Proof Sys2Proof.Machine

/-- Settles O6: the parameter is the track itself, and no command's summed bytes exceed those of track 65535. -/
theorem specifyTrackIsNotClamped : Obligations.SpecifyTrackIsNotClamped := by
  intro s h
  have hall (t : Half) : Returns (.specifyTrack t) s
      (.frame (wireFrame 0x03 (BitVec.ofNat 8 (t.toNat / 256)) (BitVec.ofNat 8 (t.toNat % 256)))) :=
    command_returns_wireFrame_of_p16 (c := .specifyTrack t) h rfl
  refine ⟨hall, hall 65535, fun c => ⟨_, command_returns_wireFrame c h, ?_⟩, hall 126, hall 239, hall 122⟩
  have := c.bytes_sum_le
  rw [wireFrame_checksum]
  omega

/-- Settles O7: the parameter byte at offset 6 is the clamped volume, the minimum with 30. -/
theorem specifyVolumeClampsToThirty : Obligations.SpecifyVolumeClampsToThirty := by
  intro s v h
  have hv : (Command.specifyVolume v).params.second = BitVec.ofNat 8 (min v.toNat 30) := clamp_zero_eq_ofNat v 30
  exact hv ▸ command_returns_wireFrame (.specifyVolume v) h

/-- Settles O9: the parameter byte at offset 5 is the clamped folder, the one at offset 6 the sub-track itself. -/
theorem specifyFolderClampsTheFolderOnly : Obligations.SpecifyFolderClampsTheFolderOnly := by
  intro s f k h
  have hf : (Command.specifyFolder f k).params.first = BitVec.ofNat 8 (min f.toNat 99) := clamp_zero_eq_ofNat f 99
  exact hf ▸ command_returns_wireFrame (.specifyFolder f k) h

/-- Settles O8: each frame is the `wireFrame` of the identifier and the member's code. -/
theorem enumerationCommandsReturnTheirFrames : Obligations.EnumerationCommandsReturnTheirFrames := by
  intro s h
  have heq (e : Equalizer) : Returns (.specifyEqualizer e) s (.frame (wireFrame 0x07 0x00 e.code)) :=
    command_returns_wireFrame (.specifyEqualizer e) h
  have hmode (m : PlaybackMode) : Returns (.specifyPlaybackMode m) s (.frame (wireFrame 0x08 0x00 m.code)) :=
    command_returns_wireFrame (.specifyPlaybackMode m) h
  exact ⟨heq .normal, heq .pop, heq .rock, heq .jazz, heq .classic, heq .bass, hmode .repeatAll, hmode .folderRepeat,
    hmode .singleRepeat, hmode .random⟩

/-- Settles O11: the law holds of every `wireFrame`, and each command returns one. -/
theorem everyCommandFrameObeysTheFrameLaw : Obligations.EveryCommandFrameObeysTheFrameLaw := by
  intro s c h
  refine ⟨_, command_returns_wireFrame c h, rfl, rfl, rfl, rfl, rfl, rfl, ?_, wireFrame_checksum _ _ _⟩
  have hle := c.bytes_sum_le
  have hsum : (wireFrame c.id c.params.first c.params.second)[1].toNat +
      (wireFrame c.id c.params.first c.params.second)[2].toNat +
      (wireFrame c.id c.params.first c.params.second)[3].toNat +
      (wireFrame c.id c.params.first c.params.second)[4].toNat +
      (wireFrame c.id c.params.first c.params.second)[5].toNat +
      (wireFrame c.id c.params.first c.params.second)[6].toNat =
      0xFF + 0x06 + c.id.toNat + 0x00 + c.params.first.toNat + c.params.second.toNat := rfl
  rw [wireFrame_checksum, hsum]
  omega

/-- Settles O12: a command returns exactly its frame, and the frame decodes to the clamped command. -/
theorem commandFramesAreInjectiveAfterClamping : Obligations.CommandFramesAreInjectiveAfterClamping := by
  intro s h
  refine ⟨fun c => ⟨_, command_returns_wireFrame c h⟩, fun c d => ?_⟩
  simp only [command_returns_iff h, ← encodeCommand_eq_iff]
  exact ⟨fun ⟨_, hc, hd⟩ => hc.trans hd.symm, fun hcd => ⟨_, rfl, hcd.symm⟩⟩

/-- Settles O13: the clamp on each of its three ranges, and what follows for two clamps and for two values. -/
theorem clampSaturates : Obligations.ClampSaturates := by
  intro w v u lo hi hle
  exact ⟨clamp_of_lt, clamp_of_gt hle, clamp_of_mem, clamp_idem v hle, clamp_mono hle⟩

/-- Settles O17: `send` runs `transmit` of what `encode` returns, where that is a frame. -/
theorem sendIsEncodeThenTransmit : Obligations.SendIsEncodeThenTransmit := by
  intro s h
  refine ⟨fun c => ⟨_, returns_frame (v := .command c) h rfl, exec_send_some rfl s⟩, fun q => ?_⟩
  cases hF : encodeMessage (.query q) with
  | some F => exact .inl ⟨F, returns_frame h hF, exec_send_some hF s⟩
  | none => exact .inr ⟨returns_notSupported h hF, send_returns_notSupported h hF⟩

/-- Settles O48: the machine's frame and the table's pattern of a message are the same ten bytes. -/
theorem machineFramesAreTheTablePatterns : Obligations.MachineFramesAreTheTablePatterns := by
  intro s v F h
  rw [returns_frame_iff h, encode_message, Option.map_eq_some_iff]
  exact ⟨fun hF => ⟨F, hF, rfl⟩, fun ⟨G, hG, hl⟩ => hG.trans (congrArg some (Vector.toList_inj.1 hl))⟩

/-- Settles O49: a conversion inverts the codes, and each closed set is a range of bytes. -/
theorem conversionIsTheInverseOfTheCodes : Obligations.ConversionIsTheInverseOfTheCodes := by
  refine ⟨fun k b m => EnumKind.convert_eq_some_iff, fun b => ?_⟩
  simp only [EnumKind.convert, Option.map_eq_none_iff]
  exact ⟨PlaybackMode.ofByte_eq_none_iff, Equalizer.ofByte_eq_none_iff, PeripheralState.ofByte_eq_none_iff,
    Device.ofByte_eq_none_iff⟩

end
end

section
/-! PROOFS. The reassembler (spec/44_reassembler.md): one received byte, and sequences of bytes fed to an idle machine, said
by what `buf` holds before and from `cursor` on. -/

namespace Sys2Proof.Machine

/-! ### One received byte -/

theorem exec_rxStart (s : State) : exec .rxStart s = .next (rxStartOp s) := rfl

theorem rxPhase_of_cursor {s : State} {c : Nat} (h : s.cursor.val = c) :
    s.rxPhase = if c = 0 then .idle else if c < 10 then .accumulating else .full := by
  rw [State.rxPhase, h]

/-- The phase after a received byte is read off the new `cursor`, which is never 0 (R23). -/
theorem rxPhase_rxAnswerOp_byte (b : Byte) (s : State) :
    (rxAnswerOp (.byte b) s).rxPhase = if b = 0x7E ∨ s.cursor.val < 9 then .accumulating else .full := by
  rw [rxPhase_of_cursor (rxByteCursor_val b s.cursor)]
  by_cases hb : b = 0x7E
  · simp [hb]
  · by_cases hc : s.cursor.val < 9
    · rw [if_neg hb, if_neg (by omega), if_pos (by omega), if_pos (.inr hc)]
    · rw [if_neg hb, if_neg (by omega), if_neg (by omega), if_neg (not_or.2 ⟨hb, hc⟩)]

/-! ### The outcomes of one byte -/

/-- Every received byte returns one outcome. -/
theorem rxByteOp_outcomes (b : Byte) (s : State) :
    (rxByteOp b s).outcomes = s.outcomes ++ [rxByteResult b s.buf s.cursor] := by rw [rxByteOp_eq]; rfl

/-- A byte that is no end marker is Incomplete, at any `cursor` (R234, R237, R238). -/
theorem rxByteResult_of_ne_end {b : Byte} (hb : b ≠ 0xEF) (buf : Frame) (c : Fin 11) :
    rxByteResult b buf c = .incomplete := by
  rw [rxByteResult, if_neg hb]

theorem completes_congr {s t : State} (h : t.outcomes = s.outcomes) : t.completes = s.completes := by
  rw [State.completes, h, State.completes]

theorem completes_of_outcomes {s t : State} {r : Result} (h : t.outcomes = s.outcomes ++ [r]) :
    t.completes = s.completes + if r.isComplete = true then 1 else 0 := by
  simp only [State.completes, h, List.filter_append, List.length_append, List.filter_cons, List.filter_nil]
  split <;> rfl

/-! ### What the buffer holds -/

/-- `buf` holds `pre` before `cursor` and `post` from `cursor` on. -/
structure State.Holds (s : State) (pre post : List Byte) : Prop where
  bytes : s.buf.toList = pre ++ post
  cursor : s.cursor.val = pre.length

theorem State.Holds.length_eq {s : State} {pre post : List Byte} (h : s.Holds pre post) :
    pre.length + post.length = 10 := by
  have := congrArg List.length h.bytes
  simpa using this.symm

theorem State.Holds.room {s : State} {pre post : List Byte} {x : Byte} (h : s.Holds pre (x :: post)) :
    s.cursor.val < 10 := by
  have := h.length_eq
  rw [h.cursor]
  simp only [List.length_cons] at this
  omega

theorem State.Holds.cursor_eq_ten {s : State} {pre : List Byte} (h : s.Holds pre []) : s.cursor = 10 := by
  have := h.length_eq
  ext
  rw [h.cursor]
  exact this

theorem State.Holds.buf_eq {s : State} {F : Frame} (h : s.Holds F.toList []) : s.buf = F :=
  Vector.toList_inj.1 (h.bytes.trans (List.append_nil _))

theorem holds_of_cursor_zero {s : State} (h : s.cursor = 0) : s.Holds [] s.buf.toList := ⟨rfl, by rw [h]; rfl⟩

theorem rxByteOp_start_holds (s : State) : (rxByteOp 0x7E s).Holds [0x7E] (List.replicate 9 0x00) := ⟨rfl, rfl⟩

/-- Where there is room, a byte that is no start marker takes the place at `cursor`. -/
theorem State.Holds.byte {s : State} {pre post : List Byte} {x b : Byte} (h : s.Holds pre (x :: post)) (hb : b ≠ 0x7E) :
    (rxByteOp b s).Holds (pre ++ [b]) post := by
  rw [rxByteOp_room hb h.room]
  refine ⟨?_, by simp [h.cursor]⟩
  show (s.buf.set s.cursor.val b h.room).toList = pre ++ [b] ++ post
  rw [Vector.toList_set, h.bytes, h.cursor]
  simp

/-- The outcome of such a byte is Complete with the new buffer if it is an end marker, and else Incomplete. -/
theorem State.Holds.byte_outcomes {s : State} {pre post : List Byte} {x b : Byte} (h : s.Holds pre (x :: post))
    (hb : b ≠ 0x7E) :
    (rxByteOp b s).outcomes = s.outcomes ++ [if b = 0xEF then Result.complete (rxByteOp b s).buf else Result.incomplete] := by
  rw [rxByteOp_room hb h.room]

/-- Such a byte hands over a frame exactly if it is an end marker. -/
theorem State.Holds.byte_completes {s : State} {pre post : List Byte} {x b : Byte} (h : s.Holds pre (x :: post))
    (hb : b ≠ 0x7E) : (rxByteOp b s).completes = s.completes + [b].count 0xEF := by
  rw [completes_of_outcomes (h.byte_outcomes hb)]
  by_cases he : b = 0xEF
  · subst he; rfl
  · rw [if_neg he, List.count_eq_zero_of_not_mem (by simpa using Ne.symm he)]; rfl

/-! ### Sequences of bytes -/

/-- The reassembler's fold over the bytes it is fed. -/
def fed (bytes : List Byte) (s : State) : State := bytes.foldl (fun t b => rxByteOp b t) s

theorem fed_cons (b : Byte) (bytes : List Byte) (s : State) : fed (b :: bytes) s = fed bytes (rxByteOp b s) := rfl

theorem fed_append (xs ys : List Byte) (s : State) : fed (xs ++ ys) s = fed ys (fed xs s) := List.foldl_append

theorem fed_concat (xs : List Byte) (b : Byte) (s : State) : fed (xs ++ [b]) s = rxByteOp b (fed xs s) :=
  fed_append xs [b] s

/-- Feeding `n` bytes takes `n` steps, to a state with the reassembler and the outcomes of the fold. -/
theorem steps_fed {bytes : List Byte} {n : Nat} {s : State} (hn : n = bytes.length) (h : s.txActive = false) :
    ∃ t, steps n (feedingBytes s bytes) = .next t ∧ t.buf = (fed bytes s).buf ∧ t.cursor = (fed bytes s).cursor ∧
      t.outcomes = (fed bytes s).outcomes :=
  ⟨feeding (fed bytes s) [], hn ▸ steps_feedingBytes bytes h, rfl, rfl, rfl⟩

/-- Bytes that are no start markers and fit are appended to what the buffer holds. -/
theorem fed_holds {bytes pre post : List Byte} {s : State} (h : s.Holds pre post) (hb : ∀ b ∈ bytes, b ≠ 0x7E)
    (hl : bytes.length ≤ post.length) : (fed bytes s).Holds (pre ++ bytes) (post.drop bytes.length) := by
  induction bytes generalizing s pre post with
  | nil => simpa [fed] using h
  | cons b bytes ih =>
    match post, hl with
    | x :: post, hl =>
      have hs := h.byte (hb b List.mem_cons_self)
      have ht := ih hs (fun c hc => hb c (List.mem_cons_of_mem b hc)) (by simpa using hl)
      simpa [fed_cons] using ht

/-- Such bytes hand over one frame for each end marker among them. -/
theorem fed_completes {bytes pre post : List Byte} {s : State} (h : s.Holds pre post) (hb : ∀ b ∈ bytes, b ≠ 0x7E)
    (hl : bytes.length ≤ post.length) : (fed bytes s).completes = s.completes + bytes.count 0xEF := by
  induction bytes generalizing s pre post with
  | nil => rfl
  | cons b bytes ih =>
    match post, hl with
    | x :: post, hl =>
      have hb₀ := hb b List.mem_cons_self
      rw [fed_cons, ih (h.byte hb₀) (fun c hc => hb c (List.mem_cons_of_mem b hc)) (by simpa using hl),
        h.byte_completes hb₀, ← List.singleton_append (l := bytes), List.count_append, Nat.add_assoc]

/-- Bytes that are no start markers change no register of a full buffer. -/
theorem fed_full {bytes : List Byte} {s : State} (h : s.cursor = 10) (hb : ∀ b ∈ bytes, b ≠ 0x7E) :
    (fed bytes s).buf = s.buf ∧ (fed bytes s).cursor = 10 := by
  induction bytes generalizing s with
  | nil => exact ⟨rfl, h⟩
  | cons b bytes ih =>
    rw [fed_cons, rxByteOp_full (hb b List.mem_cons_self) (cursor_full h)]
    exact ih h (fun c hc => hb c (List.mem_cons_of_mem b hc))

/-- An end marker on a full buffer is Overrun and changes no register. -/
theorem rxByteOp_end_full {s : State} (h : s.cursor = 10) :
    (rxByteOp 0xEF s).buf = s.buf ∧ (rxByteOp 0xEF s).cursor = 10 ∧
      (rxByteOp 0xEF s).outcomes = s.outcomes ++ [.overrun] := by
  rw [rxByteOp_full (by decide) (cursor_full h)]
  exact ⟨rfl, h, rfl⟩

/-- Each byte fed returns one outcome. -/
theorem fed_outcomes (bytes : List Byte) (s : State) :
    ∃ seen, seen.length = bytes.length ∧ (fed bytes s).outcomes = s.outcomes ++ seen := by
  induction bytes generalizing s with
  | nil => exact ⟨[], rfl, (List.append_nil _).symm⟩
  | cons b bytes ih =>
    obtain ⟨seen, hl, ho⟩ := ih (rxByteOp b s)
    refine ⟨rxByteResult b s.buf s.cursor :: seen, congrArg Nat.succ hl, ?_⟩
    rw [fed_cons, ho, rxByteOp_outcomes, List.append_assoc, List.singleton_append]

/-- Without an end marker every outcome is Incomplete. -/
theorem fed_incomplete {bytes : List Byte} (hb : ∀ b ∈ bytes, b ≠ 0xEF) (s : State) :
    (fed bytes s).outcomes = s.outcomes ++ List.replicate bytes.length Result.incomplete := by
  induction bytes generalizing s with
  | nil => exact (List.append_nil _).symm
  | cons b bytes ih =>
    rw [fed_cons, ih (fun c hc => hb c (List.mem_cons_of_mem b hc)), rxByteOp_outcomes,
      rxByteResult_of_ne_end (hb b List.mem_cons_self), List.append_assoc, List.length_cons, List.replicate_succ,
      List.singleton_append]

/-- A byte that is no start marker uses up a place for each frame it hands over. -/
theorem rxByteOp_completes_le {b : Byte} (hb : b ≠ 0x7E) (s : State) :
    (rxByteOp b s).completes + (10 - (rxByteOp b s).cursor.val) ≤ s.completes + (10 - s.cursor.val) := by
  have hc := completes_of_outcomes (rxByteOp_outcomes b s)
  by_cases h : s.cursor.val < 10
  · have hcur : (rxByteOp b s).cursor.val = s.cursor.val + 1 := by rw [rxByteOp_room hb h]
    rw [hcur, hc]
    split <;> omega
  · have hcur : (rxByteOp b s).cursor = s.cursor := by rw [rxByteOp_full hb h]
    have hr : (rxByteResult b s.buf s.cursor).isComplete = false := by
      rw [rxByteResult_full _ h]
      split <;> rfl
    rw [hcur, hc, hr]
    exact Nat.le_refl _

theorem fed_completes_le {bytes : List Byte} (hb : ∀ b ∈ bytes, b ≠ 0x7E) (s : State) :
    (fed bytes s).completes + (10 - (fed bytes s).cursor.val) ≤ s.completes + (10 - s.cursor.val) := by
  induction bytes generalizing s with
  | nil => exact Nat.le_refl _
  | cons b bytes ih =>
    exact (ih (fun c hc => hb c (List.mem_cons_of_mem b hc)) _).trans
      (rxByteOp_completes_le (hb b List.mem_cons_self) s)

/-- A start marker, at most eight data bytes and an end marker are handed over at the end marker, and not before (R246). -/
theorem fed_delimited {data : List Byte} (hd : ∀ b ∈ data, b ≠ 0x7E ∧ b ≠ 0xEF) (hl : data.length ≤ 8) (s : State) :
    (fed (0x7E :: data ++ [0xEF]) s).Holds (0x7E :: data ++ [0xEF]) (List.replicate (8 - data.length) 0x00) ∧
    (fed (0x7E :: data ++ [0xEF]) s).outcomes = s.outcomes ++ List.replicate (data.length + 1) Result.incomplete ++
      [Result.complete (fed (0x7E :: data ++ [0xEF]) s).buf] := by
  have hne : ∀ b ∈ (0x7E : Byte) :: data, b ≠ 0xEF :=
    List.forall_mem_cons.2 ⟨by decide, fun b hb => (hd b hb).2⟩
  have hin : (fed (0x7E :: data) s).Holds (0x7E :: data) (0x00 :: List.replicate (8 - data.length) 0x00) := by
    have h := fed_holds (rxByteOp_start_holds s) (fun b hb => (hd b hb).1) (by simp; omega)
    rwa [List.drop_replicate, show 9 - data.length = 8 - data.length + 1 by omega, List.replicate_succ, ← fed_cons,
      List.singleton_append] at h
  rw [fed_concat]
  refine ⟨hin.byte (by decide), ?_⟩
  rw [hin.byte_outcomes (by decide), if_pos rfl, fed_incomplete hne, List.length_cons]

/-- With seven data bytes there is room for one more end marker, which hands over the whole buffer again (R246, D23). -/
theorem fed_delimited_twice {data : List Byte} (hd : ∀ b ∈ data, b ≠ 0x7E ∧ b ≠ 0xEF) (hl : data.length = 7) {F G : Frame}
    (hF : F.toList = 0x7E :: data ++ [0xEF] ++ [0xEF]) (hG : G.toList = 0x7E :: data ++ [0xEF] ++ [0x00]) (s : State) :
    (fed F.toList s).outcomes = s.outcomes ++ List.replicate 8 Result.incomplete ++ [Result.complete G, Result.complete F] := by
  obtain ⟨hh, ho⟩ := fed_delimited hd (by omega) s
  rw [hl, Nat.add_sub_cancel_left 7 1, List.replicate_one] at hh
  rw [hl] at ho
  have hbuf : (fed (0x7E :: data ++ [0xEF]) s).buf = G := Vector.toList_inj.1 (hh.bytes.trans hG.symm)
  have hlast := hh.byte (b := 0xEF) (by decide)
  rw [← hF] at hlast
  rw [hF, fed_concat, hh.byte_outcomes (by decide), if_pos rfl, hlast.buf_eq, ho, hbuf, List.append_assoc]
  rfl

/-! ### The bytes of a frame -/

/-- The bytes of `F` at the offsets `m` to `n - 1`. -/
def between (F : Frame) (m n : Nat) : List Byte := (F.toList.drop m).take (n - m)

theorem between_length (F : Frame) {m n : Nat} (h : n ≤ 10) : (between F m n).length = n - m := by
  simp only [between, List.length_take, List.length_drop, Vector.length_toList]
  omega

theorem mem_between {F : Frame} {m n : Nat} {b : Byte} (h : b ∈ between F m n) :
    ∃ i : Fin 10, m ≤ i.val ∧ i.val < n ∧ F[i] = b := by
  obtain ⟨k, hk, rfl⟩ := List.mem_iff_getElem.1 h
  simp only [between, List.length_take, List.length_drop, Vector.length_toList] at hk
  exact ⟨⟨m + k, by omega⟩, by simp, by simp only []; omega, by simp [between]⟩

/-- From offset `j` a frame is its byte there, the bytes between, and the last byte. -/
theorem drop_eq_between (F : Frame) (j : Fin 10) (h : j.val ≤ 8) :
    F.toList.drop j.val = F[j] :: between F (j.val + 1) 9 ++ [F[9]] := by
  have hlast : F.toList.drop 9 = [F[9]] := by
    rw [List.drop_eq_getElem_cons (by simp), List.drop_of_length_le (by simp)]
    simp
  rw [List.drop_eq_getElem_cons (by simp), ← List.take_append_drop (9 - (j.val + 1)) (F.toList.drop (j.val + 1)),
    List.drop_drop, show j.val + 1 + (9 - (j.val + 1)) = 9 by omega, hlast]
  simp [between]

theorem toList_eq_between (F : Frame) : F.toList = F[0] :: between F 1 9 ++ [F[9]] := drop_eq_between F 0 (by decide)

/-- A frame whose only markers are the first and the last byte, fed to the reassembler. -/
theorem fed_marker_free {F : Frame} (h0 : F[0] = 0x7E) (h9 : F[9] = 0xEF)
    (hm : ∀ i : Fin 10, 1 ≤ i.val → i.val ≤ 8 → F[i] ≠ 0x7E ∧ F[i] ≠ 0xEF) (s : State) :
    (fed F.toList s).buf = F ∧ (fed F.toList s).cursor = 10 ∧
      (fed F.toList s).outcomes = s.outcomes ++ List.replicate 9 Result.incomplete ++ [Result.complete F] := by
  have hd : ∀ b ∈ between F 1 9, b ≠ 0x7E ∧ b ≠ 0xEF := by
    intro b hb
    obtain ⟨i, h₁, h₂, rfl⟩ := mem_between hb
    exact hm i h₁ (by omega)
  have hlen := between_length F (m := 1) (n := 9) (by decide)
  obtain ⟨hh, ho⟩ := fed_delimited hd (by omega) s
  rw [← h0, ← h9, ← toList_eq_between, hlen] at hh ho
  exact ⟨hh.buf_eq, hh.cursor_eq_ten, by rw [ho, hh.buf_eq]⟩

/-- Such a frame is assembled alike whatever bytes were fed before it (R247). -/
theorem steps_fed_after (before : List Byte) {F : Frame} (h0 : F[0] = 0x7E) (h9 : F[9] = 0xEF)
    (hm : ∀ i : Fin 10, 1 ≤ i.val → i.val ≤ 8 → F[i] ≠ 0x7E ∧ F[i] ≠ 0xEF) {s : State} (h : s.txActive = false) :
    ∃ t seen, steps (before.length + 10) (feedingBytes s (before ++ F.toList)) = .next t ∧ t.buf = F ∧ t.cursor = 10 ∧
      seen.length = before.length ∧
      t.outcomes = s.outcomes ++ seen ++ List.replicate 9 Result.incomplete ++ [Result.complete F] ∧
      ((∀ b ∈ before, b ≠ 0xEF) → seen = List.replicate before.length Result.incomplete) := by
  obtain ⟨seen, hl, ho⟩ := fed_outcomes before s
  obtain ⟨hb, hc, hout⟩ := fed_marker_free h0 h9 hm (fed before s)
  rw [← fed_append] at hb hc hout
  rw [ho] at hout
  obtain ⟨t, ht, htb, htc, hto⟩ := steps_fed (bytes := before ++ F.toList) (n := before.length + 10) (by simp) h
  refine ⟨t, seen, ht, htb.trans hb, htc.trans hc, hl, hto.trans hout, fun hne => ?_⟩
  exact List.append_cancel_left (ho.symm.trans (fed_incomplete hne s))

end Sys2Proof.Machine

section
open Sys2Proof Sys2Proof.Machine

/-- Settles O26: the reception of a start marker reads neither `buf` nor `cursor`. -/
theorem startMarkerResetsTheBuffer : Obligations.StartMarkerResetsTheBuffer := by
  intro s
  rw [exec_rxStart, rxStartOp_eq]

/-- Settles O27: there is room at each of these cursors; the registers behind the marker are not touched. -/
theorem endMarkerWithRoomCompletes : Obligations.EndMarkerWithRoomCompletes := by
  intro s c hc
  refine ⟨?_, fun ht i hi => ?_⟩
  · rw [exec_rxEnd, rxEndOp_room (cursor_lt_of_castSucc hc)]
    simp [hc, Fin.succ]
  · have hne : c.val ≠ i.val := by omega
    have := ht i (by rw [hc]; exact Nat.le_of_lt hi)
    simpa [Vector.getElem_set_ne, hne] using this

/-- Settles O31: an answer without a byte is only reported. -/
theorem noByteNoChange : Obligations.NoByteNoChange := by
  intro s
  exact ⟨(exec_readAnswer_eq .noData s).trans (congrArg _ (rxAnswerOp_noData s)),
    (exec_readAnswer_eq .readError s).trans (congrArg _ (rxAnswerOp_readError s))⟩

/-- Settles O33: the new `buf` is `rxByteBuf`. -/
theorem receivedByteTouchesOneRegister : Obligations.ReceivedByteTouchesOneRegister := by
  intro s t b hb h i
  rw [exec_readAnswer_eq] at h
  cases h
  exact rxByteBuf_get hb s.buf s.cursor i

/-- Settles O34: the new phase is read off the new `cursor`. -/
theorem anyByteLeavesIdle : Obligations.AnyByteLeavesIdle := by
  intro s b
  have hp := rxPhase_rxAnswerOp_byte b s
  refine ⟨_, exec_readAnswer_eq _ s, ?_, hp⟩
  rw [hp]
  split <;> exact nofun

/-- Settles O55: an `rx_step` computes its four results from `buf`, `cursor` and the answer. -/
theorem reassemblerLearnsNothingOfTheTransmitter : Obligations.ReassemblerLearnsNothingOfTheTransmitter := by
  intro a s t hb hc
  refine ⟨_, _, a.result s.buf s.cursor, exec_readAnswer_eq a s, exec_readAnswer_eq a t, ?_, ?_, rfl, ?_⟩
  · exact congrArg₂ a.bufAfter hb hc
  · exact congrArg a.cursorAfter hc
  · rw [hb, hc]; rfl

/-- Settles O38: such a frame is a delimited sequence that takes all ten places. -/
theorem markerFreeFramesRoundTrip : Obligations.MarkerFreeFramesRoundTrip := by
  intro F s h h0 h9 hm
  obtain ⟨t, ht, hb, hc, ho⟩ := steps_fed (bytes := F.toList) (n := 10) (by simp) h
  refine ⟨t, ht, ?_⟩
  rw [hb, hc, ho]
  exact fed_marker_free h0 h9 hm s

/-- Settles O5: the frame begins with a delimited sequence of nine bytes, and its tenth byte is one more end marker, for
which there is room. -/
theorem resetModuleIsAFrameThatCompletesTwice : Obligations.ResetModuleIsAFrameThatCompletesTwice := by
  intro s h
  obtain ⟨t, ht, -, -, ho⟩ := steps_fed (bytes := [0x7E, 0xFF, 0x06, 0x0C, 0x00, 0x00, 0x00, 0xFE, 0xEF, 0xEF]) rfl h
  refine ⟨command_returns_wireFrame .resetModule h, t, ht, ho.trans ?_⟩
  exact fed_delimited_twice (data := [0xFF, 0x06, 0x0C, 0x00, 0x00, 0x00, 0xFE]) (by simp) rfl
    (F := #v[0x7E, 0xFF, 0x06, 0x0C, 0x00, 0x00, 0x00, 0xFE, 0xEF, 0xEF])
    (G := #v[0x7E, 0xFF, 0x06, 0x0C, 0x00, 0x00, 0x00, 0xFE, 0xEF, 0x00]) rfl rfl s

/-- Settles O39: after the start marker the nine bytes left fit, and the last of them is an end marker. -/
theorem innerEndMarkersCompleteEarly : Obligations.InnerEndMarkersCompleteEarly := by
  intro F s h h0 h9 hm
  have hF := toList_eq_between F
  rw [h0, h9] at hF
  have hne : ∀ b ∈ between F 1 9, b ≠ 0x7E := by
    intro b hb
    obtain ⟨i, h₁, h₂, rfl⟩ := mem_between hb
    exact hm i h₁ (by omega)
  have hlen := between_length F (m := 1) (n := 9) (by decide)
  have hin := fed_holds (rxByteOp_start_holds s) hne (by rw [hlen]; decide)
  have hcount := fed_completes (rxByteOp_start_holds s) hne (by rw [hlen]; decide)
  rw [hlen, ← fed_cons] at hin
  rw [← fed_cons] at hcount
  have hend := hin.byte (b := 0xEF) (by decide)
  rw [List.singleton_append, ← hF] at hend
  obtain ⟨t, ht, hb, hc, ho⟩ := steps_fed (bytes := F.toList) (n := 10) (by simp) h
  refine ⟨t, ht, ?_⟩
  rw [hF, fed_concat] at hb hc ho
  refine ⟨hb.trans hend.buf_eq, hc.trans hend.cursor_eq_ten, ?_, ?_⟩
  · have hstart : (rxByteOp 0x7E s).completes = s.completes := completes_of_outcomes (rxByteOp_outcomes 0x7E s)
    have hcountF : F.toList.count 0xEF = (between F 1 9).count 0xEF + [(0xEF : Byte)].count 0xEF := by
      rw [hF, List.count_append, List.count_cons_of_ne (by decide)]
    rw [completes_congr ho, hin.byte_completes (by decide), hcount, hstart, hcountF, Nat.add_assoc]
  · rw [ho, hin.byte_outcomes (by decide), List.getLast?_concat, if_pos rfl, hend.buf_eq]

/-- Settles O40: the bytes before the inner start marker are Incomplete, and from it on the frame is a delimited sequence. -/
theorem innerStartMarkerTruncatesTheFrame : Obligations.InnerStartMarkerTruncatesTheFrame := by
  intro F s j h h0 h9 hj1 hj8 hj hm
  have hF := List.take_append_drop j.val F.toList
  have hdrop := drop_eq_between F j hj8
  rw [hj, h9] at hdrop
  have hbefore : ∀ b ∈ F.toList.take j.val, b ≠ 0xEF := by
    intro b hb
    obtain ⟨i, -, hi, rfl⟩ := mem_between (m := 0) (n := j.val) hb
    by_cases hi0 : i.val = 0
    · have hi : F[i] = 0x7E := (show i = 0 from Fin.ext hi0) ▸ h0
      rw [hi]
      decide
    · exact (hm i (by omega) (by omega) (by omega)).2
  have hdata : ∀ b ∈ between F (j.val + 1) 9, b ≠ 0x7E ∧ b ≠ 0xEF := by
    intro b hb
    obtain ⟨i, h₁, h₂, rfl⟩ := mem_between hb
    exact hm i (by omega) (by omega) (by omega)
  have hlen := between_length F (m := j.val + 1) (n := 9) (by decide)
  obtain ⟨hh, ho⟩ := fed_delimited hdata (by omega) (fed (F.toList.take j.val) s)
  rw [← hdrop, ← fed_append, hF, hlen] at hh ho
  obtain ⟨t, ht, hb, hc, hout⟩ := steps_fed (bytes := F.toList) (n := 10) (by simp) h
  refine ⟨t, (fed F.toList s).buf, ht, ?_, ?_, ?_⟩
  · rw [hc, hh.cursor]
    simp
  · rw [hout, ho, fed_incomplete hbefore, List.append_assoc s.outcomes, List.replicate_append_replicate, List.length_take,
      Vector.length_toList, show min j.val 10 + (9 - (j.val + 1) + 1) = 9 by omega]
  · rw [hh.bytes, show 8 - (9 - (j.val + 1)) = j.val by omega]

/-- Settles O41: whatever was fed before, the start marker begins the sequence anew; S4 is the case of two bytes before the
frame of Playback. -/
theorem spuriousStartMarkerResynchronises : Obligations.SpuriousStartMarkerResynchronises := by
  intro s h
  refine ⟨fun before F h0 h9 hm => steps_fed_after before h0 h9 hm h, ?_⟩
  obtain ⟨t, seen, ht, -, -, -, hout, hseen⟩ :=
    steps_fed_after [0x7E, 0x01] (F := #v[0x7E, 0xFF, 0x06, 0x0D, 0x00, 0x00, 0x00, 0xFE, 0xEE, 0xEF]) rfl rfl (by decide) h
  refine ⟨t, ht, ?_⟩
  rw [hout, hseen (by decide), List.append_assoc s.outcomes, List.replicate_append_replicate]
  rfl

/-- Settles O42: each frame handed over uses up a place, and no place is won back without a start marker. -/
theorem completesBetweenStartMarkersAreBounded : Obligations.CompletesBetweenStartMarkersAreBounded := by
  intro s bytes h hb
  obtain ⟨t, ht, -, -, ho⟩ := steps_fed (bytes := bytes) rfl h
  exact ⟨t, ht, completes_congr ho ▸ (Nat.le_add_right _ _).trans (fed_completes_le hb s)⟩

/-- Settles O43: without a start marker a full buffer stays as it is, and the class of a byte decides its outcome. -/
theorem fullBufferIsDeafUntilAStartMarker : Obligations.FullBufferIsDeafUntilAStartMarker := by
  intro s bytes h hc hb
  obtain ⟨hbuf, hcur⟩ := fed_full hc (fun b hm => (hb b hm).1)
  obtain ⟨hbuf', hcur', hout⟩ := rxByteOp_end_full hcur
  rw [← fed_concat] at hbuf' hcur' hout
  obtain ⟨t, ht, htb, htc, hto⟩ := steps_fed (bytes := bytes ++ [0xEF]) (n := bytes.length + 1) (by simp) h
  refine ⟨t, ht, htb.trans (hbuf'.trans hbuf), htc.trans hcur', hto.trans (hout.trans ?_)⟩
  rw [fed_incomplete (fun b hm => (hb b hm).2)]

/-- Settles O44: the ten bytes take the ten places, and then the buffer is full. -/
theorem tenDataBytesThenEndMarkerOverrun : Obligations.TenDataBytesThenEndMarkerOverrun := by
  intro s F h hc hF
  have hd : ∀ b ∈ F.toList, b ≠ 0x7E ∧ b ≠ 0xEF := by
    intro b hb
    obtain ⟨k, hk, rfl⟩ := List.mem_iff_getElem.1 hb
    simpa using hF ⟨k, by simpa using hk⟩
  have hh := fed_holds (holds_of_cursor_zero hc) (fun b hb => (hd b hb).1) (by simp)
  rw [List.drop_of_length_le (by simp), List.nil_append] at hh
  obtain ⟨hbuf, hcur, hout⟩ := rxByteOp_end_full hh.cursor_eq_ten
  rw [← fed_concat] at hbuf hcur hout
  obtain ⟨t, ht, htb, htc, hto⟩ := steps_fed (bytes := F.toList ++ [0xEF]) (n := 11) (by simp) h
  refine ⟨t, ht, htb.trans (hbuf.trans hh.buf_eq), htc.trans hcur, hto.trans (hout.trans ?_)⟩
  rw [fed_incomplete (fun b hb => (hd b hb).2), Vector.length_toList]

end
end

section
/-! PROOFS. Transmitting (spec/43_transmit.md): `transmit` on every course of the transport's answers, what the loop's effect
depends on, and turns in which the transport does not answer. -/

namespace Sys2Proof.Machine

/-! ### What the machine does next (R19, R212, R215) -/

section Moves

variable {s : State} {c : Call} {rest : List Call} {later : List (Option WriteAnswer)}

theorem nextMove_request (h : s.txActive = false) (hc : s.calls = c :: rest) :
    nextMove s = acceptCall c (s.setCalls rest) := by
  simp [nextMove, nextCall, h, hc]

theorem nextMove_answered {a : WriteAnswer} (h : s.txActive = true) (ha : s.writeAnswers = some a :: later) :
    nextMove s = .resume := by
  simp [nextMove, h, ha]

theorem nextMove_waiting (h : s.txActive = true) (ha : s.writeAnswers = none :: later) :
    nextMove s = turnWhileWaiting (s.setWriteAnswers later) := by
  simp [nextMove, h, ha]

theorem nextMove_unanswered (h : s.txActive = true) (ha : s.writeAnswers = []) : nextMove s = turnWhileWaiting s := by
  simp [nextMove, h, ha]

theorem turnWhileWaiting_no_call (hc : s.calls = []) : turnWhileWaiting s = .wait s := by
  simp [turnWhileWaiting, hc]

theorem turnWhileWaiting_transmitter (hc : s.calls = c :: rest) (ha : c.agent = some .transmitter) :
    turnWhileWaiting s = .wait s := by
  simp [turnWhileWaiting, hc, ha]

theorem turnWhileWaiting_other (hc : s.calls = c :: rest) (ha : c.agent ≠ some .transmitter) :
    turnWhileWaiting s = acceptCall c (s.setCalls rest) := by
  simp [turnWhileWaiting, hc, ha]

theorem step_of_wait {t : State} (h : nextMove s = .wait t) : step s = .next t := by simp [step, h]

theorem step_of_resume (h : nextMove s = .resume) : step s = .next (txRun s) := by simp [step, h]

theorem step_of_run {i : Instr} {t : State} (h : nextMove s = .run i t) : step s = exec i t := by simp [step, h]

theorem step_of_done {t : State} (h : nextMove s = .done t) : step s = .next t := by simp [step, h]

theorem step_of_undecodable {e : DecodeError} (h : nextMove s = .undecodable e) :
    step s = .refused (.undecodablePattern e) := by simp [step, h]

/-- Where the transport has answered, the step goes on with the `transmit`, and the request stays with the caller. -/
theorem step_answered {a : WriteAnswer} (h : s.txActive = true) (ha : s.writeAnswers = some a :: later) :
    step s = .next (txRun s) ∧ (txRun s).calls = s.calls :=
  ⟨step_of_resume (nextMove_answered h ha), (txRun_txFrame s).calls⟩

end Moves

/-! ### The courses of the transport's answers (R210) -/

/-- `n` answers are acceptances, or one of them rejects first, or one of them is missing first. -/
theorem answers_cases (n : Nat) (as : List (Option WriteAnswer)) :
    (∃ rest, as = List.replicate n (some .accepted) ++ rest) ∨
    (∃ k < n, ∃ rest, as = List.replicate k (some .accepted) ++ some .rejected :: rest) ∨
    (∃ k < n, ∃ rest, (rest = [] ∨ ∃ later, rest = none :: later) ∧ as = List.replicate k (some .accepted) ++ rest) := by
  induction n generalizing as with
  | zero => exact .inl ⟨as, rfl⟩
  | succ n ih =>
    match as with
    | [] => exact .inr (.inr ⟨0, n.succ_pos, [], .inl rfl, rfl⟩)
    | none :: later => exact .inr (.inr ⟨0, n.succ_pos, none :: later, .inr ⟨later, rfl⟩, rfl⟩)
    | some .rejected :: rest => exact .inr (.inl ⟨0, n.succ_pos, rest, rfl⟩)
    | some .accepted :: as =>
      rcases ih as with ⟨rest, rfl⟩ | ⟨k, hk, rest, rfl⟩ | ⟨k, hk, rest, hr, rfl⟩
      · exact .inl ⟨rest, rfl⟩
      · exact .inr (.inl ⟨k + 1, Nat.succ_lt_succ hk, rest, rfl⟩)
      · exact .inr (.inr ⟨k + 1, Nat.succ_lt_succ hk, rest, hr, rfl⟩)

theorem txLoop_unanswered {rest : List (Option WriteAnswer)} (hr : rest = [] ∨ ∃ later, rest = none :: later) {s : State}
    (h : s.txidx.val < 10) : txLoop rest s = s.setWriteAnswers rest := by
  rcases hr with rfl | ⟨later, rfl⟩
  · exact txLoop_nil s h
  · exact txLoop_wait s later h

/-- A `transmit` whose answer `k` is missing stays in progress at byte `k` (R212). -/
theorem exec_transmit_unanswered {F : Frame} {s : State} {k : Fin 10} {rest : List (Option WriteAnswer)}
    (h : s.txActive = false) (hr : rest = [] ∨ ∃ later, rest = none :: later)
    (ha : s.writeAnswers = List.replicate k.val (some .accepted) ++ rest) :
    exec (.transmit F) s = .next { s with
      txframe := F, txidx := k.castSucc, txActive := true, writeAnswers := rest,
      writes := s.writes ++ (F.toList.take k.val).map fun b => (b, .accepted) } := by
  rw [exec_transmit, onTransmitter_idle h, transmitOp_accepts k.castSucc ha, txLoop_unanswered hr k.isLt]
  rfl

/-- Answers that are all ready and begin with `k` acceptances have the answer `k` ready. -/
theorem answered_of_ready {as : List WriteAnswer} {rest rest' : List (Option WriteAnswer)} {k : Nat} (hk : k < as.length)
    (h : as.map some ++ rest = List.replicate k (some .accepted) ++ rest') : ∃ a later, rest' = some a :: later := by
  induction k generalizing as with
  | zero =>
    match as with
    | a :: as => exact ⟨a, as.map some ++ rest, h.symm⟩
  | succ k ih =>
    match as with
    | _ :: as => exact ih (Nat.lt_of_succ_lt_succ hk) (List.tail_eq_of_cons_eq h)

/-! ### The loop on an answer that is ready -/

/-- The first thing the loop puts on record is the answer to the write of `txframe[txidx]`. -/
theorem txRun_first_write {s : State} {a : WriteAnswer} {later : List (Option WriteAnswer)}
    (ha : s.writeAnswers = some a :: later) (h : s.txidx.val < 10) :
    s.writes ++ [(s.txframe[s.txidx.val], a)] <+: (txRun s).writes := by
  rw [txRun, ha]
  cases a with
  | accepted =>
    rw [txLoop_accepted s later h]
    exact (txLoop_record later ((s.logWrite s.txframe[s.txidx.val] .accepted).setTx s.txframe
      ⟨s.txidx.val + 1, by omega⟩ s.txActive)).1
  | rejected => rw [txLoop_rejected s later h]; exact List.prefix_rfl

/-! ### What the loop's effect depends on -/

/-- What the loop writes, and what it appends to the record, is a function of the answers and of the transmitter's
registers. -/
theorem txLoop_effect (as : List (Option WriteAnswer)) (F : Frame) (idx : Fin 11) (act : Bool) :
    ∃ idx' act' rest ws rs, ∀ s : State, s.txframe = F → s.txidx = idx → s.txActive = act →
      txLoop as s = { s with
        txidx := idx', txActive := act', writeAnswers := rest, writes := s.writes ++ ws,
        outcomes := s.outcomes ++ rs } := by
  induction as generalizing idx with
  | nil =>
    by_cases h : idx.val < 10
    · refine ⟨idx, act, [], [], [], ?_⟩
      rintro s rfl rfl rfl
      simp [txLoop_nil s h, State.setWriteAnswers]
    · refine ⟨idx, false, [], [], [.ok], ?_⟩
      rintro s rfl rfl rfl
      simp [txLoop_done s _ h, State.setWriteAnswers, State.setTx, State.report]
  | cons a later ih =>
    by_cases h : idx.val < 10
    · match a with
      | some .accepted =>
        obtain ⟨idx', act', rest, ws, rs, heff⟩ := ih ⟨idx.val + 1, by omega⟩
        refine ⟨idx', act', rest, (F[idx.val], .accepted) :: ws, rs, ?_⟩
        rintro s rfl rfl rfl
        rw [txLoop_accepted s later h]
        refine (heff _ ?_ ?_ ?_).trans ?_
        · rfl
        · rfl
        · rfl
        · simp [State.setTx, State.logWrite]
      | some .rejected =>
        refine ⟨idx, false, later, [(F[idx.val], .rejected)], [.writeFailure], ?_⟩
        rintro s rfl rfl rfl
        simp [txLoop_rejected s later h, State.setWriteAnswers, State.setTx, State.logWrite, State.report]
      | none =>
        refine ⟨idx, act, none :: later, [], [], ?_⟩
        rintro s rfl rfl rfl
        simp [txLoop_wait s later h, State.setWriteAnswers]
    · refine ⟨idx, false, a :: later, [], [.ok], ?_⟩
      rintro s rfl rfl rfl
      simp [txLoop_done s _ h, State.setWriteAnswers, State.setTx, State.report]

/-! ### A transport that never answers again (R212) -/

/-- `t` has the `transmit` that waits in `s`, on a transport that never answers, and a caller who creates nothing. -/
structure StalledAs (s t : State) : Prop where
  txActive : t.txActive = true
  txframe : t.txframe = s.txframe
  txidx : t.txidx = s.txidx
  writes : t.writes = s.writes
  writeAnswers : t.writeAnswers = []
  calls : Call.create ∉ t.calls

theorem exec_transmit_stalled {F : Frame} {s : State} {k : Fin 10} (h : s.txActive = false)
    (ha : s.writeAnswers = List.replicate k.val (some .accepted)) :
    ∃ t, exec (.transmit F) s = .next t ∧ t.txActive = true ∧ t.txframe = F ∧ t.txidx = k.castSucc ∧
      t.writes = s.writes ++ ((F.toList.take k.val).map fun b => (b, .accepted)) ∧ t.writeAnswers = [] ∧
      t.calls = s.calls :=
  ⟨_, exec_transmit_unanswered h (.inl rfl) (ha.trans (List.append_nil _).symm), rfl, rfl, rfl, rfl, rfl, rfl⟩

theorem stalledAs_refl {s : State} (h : s.txActive = true) (ha : s.writeAnswers = []) (hc : Call.create ∉ s.calls) :
    StalledAs s s := ⟨h, rfl, rfl, rfl, ha, hc⟩

theorem acceptCall_rxStep_cons {s : State} {a : ReadAnswer} {rs : List ReadAnswer} (hr : s.readAnswers = a :: rs) :
    acceptCall .rxStep s = .run a.instr (s.setReadAnswers rs) := by
  simp [acceptCall, transportRead, hr]

/-- With no answer queued the transport has no byte (R29). -/
theorem acceptCall_rxStep_nil {s : State} (hr : s.readAnswers = []) : acceptCall .rxStep s = .run .rxNoData s := by
  simp [acceptCall, transportRead, hr, ReadAnswer.instr]

/-- A request that is neither the transmitter's nor a creation is an `rx_step` or returns an outcome at once. -/
theorem acceptCall_other {c : Call} (hc : c.agent ≠ some .transmitter) (hne : c ≠ .create) (s : State) :
    (∃ a : ReadAnswer, ∃ rs, acceptCall c s = .run a.instr (s.setReadAnswers rs)) ∨
      ∃ r, acceptCall c s = .done (s.report r) := by
  cases c with
  | encode v => exact absurd rfl hc
  | transmit F => exact absurd rfl hc
  | send v => exact absurd rfl hc
  | create => exact absurd rfl hne
  | rxStep =>
    match hr : s.readAnswers with
    | [] => exact .inl ⟨.noData, s.readAnswers, acceptCall_rxStep_nil hr⟩
    | a :: rs => exact .inl ⟨a, rs, acceptCall_rxStep_cons hr⟩
  | convert k b =>
    cases hk : k.convert b with
    | some m => exact .inr ⟨.converted m, by simp [acceptCall, hk]⟩
    | none => exact .inr ⟨.conversionFailure, by simp [acceptCall, hk]⟩
  | pattern bytes =>
    match bytes with
    | [b] => exact .inl ⟨.byte b, s.readAnswers, rfl⟩
    | [] => exact absurd rfl hc
    | _ :: _ :: _ => exact absurd (by simp [Call.agent]) hc

/-- A turn changes nothing of a stalled `transmit`, whatever the caller asks but a creation. -/
theorem step_stalled {s t : State} (h : StalledAs s t) : ∃ u, step t = .next u ∧ StalledAs s u := by
  have hm := nextMove_unanswered h.txActive h.writeAnswers
  match hc : t.calls with
  | [] => exact ⟨t, step_of_wait (hm.trans (turnWhileWaiting_no_call hc)), h⟩
  | c :: rest =>
    obtain ⟨hne, hrest⟩ := not_or.1 (List.mem_cons.not.1 (hc ▸ h.calls))
    by_cases ha : c.agent = some .transmitter
    · exact ⟨t, step_of_wait (hm.trans (turnWhileWaiting_transmitter hc ha)), h⟩
    · have hcall := hm.trans (turnWhileWaiting_other hc ha)
      rcases acceptCall_other ha (Ne.symm hne) (t.setCalls rest) with ⟨a, rs, hr⟩ | ⟨r, hr⟩
      · exact ⟨_, (step_of_run (hcall.trans hr)).trans (exec_readAnswer_eq a _),
          ⟨h.txActive, h.txframe, h.txidx, h.writes, h.writeAnswers, hrest⟩⟩
      · exact ⟨_, step_of_done (hcall.trans hr), ⟨h.txActive, h.txframe, h.txidx, h.writes, h.writeAnswers, hrest⟩⟩

theorem steps_stalled (n : Nat) {s t : State} (h : StalledAs s t) : ∃ u, steps n t = .next u ∧ StalledAs s u := by
  induction n generalizing t with
  | zero => exact ⟨t, rfl, h⟩
  | succ n ih =>
    obtain ⟨u, hu, hsu⟩ := step_stalled h
    obtain ⟨v, hv, hsv⟩ := ih hsu
    exact ⟨v, (steps_succ n hu).trans hv, hsv⟩

/-- Where the caller asks nothing either, a stalled machine stands still. -/
theorem steps_stalled_no_call (n : Nat) {s : State} (h : s.txActive = true) (ha : s.writeAnswers = [])
    (hc : s.calls = []) : steps n s = .next s := by
  induction n with
  | zero => rfl
  | succ n ih =>
    have hs := step_of_wait ((nextMove_unanswered h ha).trans (turnWhileWaiting_no_call hc))
    rw [steps_succ n hs, ih]

/-! ### Waiting turns (R212, R215) -/

/-- `u` is `v` but for the answers left over, which agree when the waiting turns are dropped. -/
structure SameButWaits (u v : State) : Prop where
  answers : u.writeAnswers.filter Option.isSome = v.writeAnswers
  rest : { u with writeAnswers := [] } = { v with writeAnswers := [] }

/-- From a state that stands before its answers, steps lead to where the loop stops on them. -/
theorem steps_to_txLoop (as : List (Option WriteAnswer)) {s : State} (h : s.txActive = true)
    (hi : s.txidx.val < 10) : ∃ n, steps n (s.setWriteAnswers as) = .next (txLoop as s) := by
  match as with
  | [] => exact ⟨0, by rw [txLoop_nil s hi]; rfl⟩
  | none :: rest => exact ⟨0, by rw [txLoop_wait s rest hi]; rfl⟩
  | some a :: rest =>
    have hs : step (s.setWriteAnswers (some a :: rest)) = .next (txRun (s.setWriteAnswers (some a :: rest))) :=
      (step_answered (s := s.setWriteAnswers (some a :: rest)) h rfl).1
    exact ⟨1, (steps_succ 0 hs).trans (congrArg _ (txLoop_setWriteAnswers _ _ s))⟩

/-- A waiting turn that is used up leads on to the answers behind it. -/
theorem steps_after_wait (rest : List (Option WriteAnswer)) {s : State} (h : s.txActive = true) (hc : s.calls = [])
    (hi : s.txidx.val < 10) : ∃ n, steps n (txLoop (none :: rest) s) = .next (txLoop rest s) := by
  obtain ⟨n, hn⟩ := steps_to_txLoop rest h hi
  have hs : step (txLoop (none :: rest) s) = .next (s.setWriteAnswers rest) := by
    rw [txLoop_wait s rest hi]
    exact step_of_wait ((nextMove_waiting (s := s.setWriteAnswers (none :: rest)) h rfl).trans
      (turnWhileWaiting_no_call hc))
  exact ⟨n + 1, (steps_succ n hs).trans hn⟩

/-- With enough steps the loop does on answers with waiting turns what it does on them without. -/
theorem steps_txLoop_filter (as : List (Option WriteAnswer)) {s : State} (h : s.txActive = true) (hc : s.calls = []) :
    ∃ n u, steps n (txLoop as s) = .next u ∧ SameButWaits u (txLoop (as.filter Option.isSome) s) := by
  induction as generalizing s with
  | nil =>
    refine ⟨0, _, rfl, ?_⟩
    by_cases hi : s.txidx.val < 10
    · rw [List.filter_nil, txLoop_nil s hi]
      exact ⟨rfl, rfl⟩
    · rw [List.filter_nil, txLoop_done s _ hi]
      exact ⟨rfl, rfl⟩
  | cons a rest ih =>
    by_cases hi : s.txidx.val < 10
    · match a with
      | none =>
        obtain ⟨m, hm⟩ := steps_after_wait rest h hc hi
        obtain ⟨n, u, hn, hu⟩ := ih h hc
        exact ⟨m + n, u, (steps_add m n hm).trans hn, hu⟩
      | some .rejected =>
        refine ⟨0, _, rfl, ?_⟩
        rw [List.filter_cons_of_pos rfl, txLoop_rejected s rest hi, txLoop_rejected s _ hi]
        exact ⟨rfl, rfl⟩
      | some .accepted =>
        rw [List.filter_cons_of_pos rfl, txLoop_accepted s rest hi, txLoop_accepted s _ hi]
        exact ih (s := (s.logWrite s.txframe[s.txidx.val] .accepted).setTx s.txframe ⟨s.txidx.val + 1, by omega⟩
          s.txActive) h hc
    · refine ⟨0, _, rfl, ?_⟩
      rw [txLoop_done s _ hi, txLoop_done s _ hi]
      exact ⟨rfl, rfl⟩

/-- `transmit` on other answers is the loop on those answers, from one and the same state. -/
theorem transmitOp_setWriteAnswers (F : Frame) (s : State) (l : List (Option WriteAnswer)) :
    transmitOp F (s.setWriteAnswers l) = txLoop l (s.setTx F 0 true) :=
  txLoop_setWriteAnswers l l (s.setTx F 0 true)

end Sys2Proof.Machine

section
open Sys2Proof Sys2Proof.Machine

/-- Settles O15: the loop's three courses, each from the state after the acceptances. -/
theorem transmitRunsItsLoop : Obligations.TransmitRunsItsLoop := by
  intro F s h
  exact ⟨fun _ ha => exec_transmit_accepted h ha, fun _ _ ha => exec_transmit_rejected h ha,
    fun _ _ hr ha => exec_transmit_unanswered h hr ha⟩

/-- Settles O16: the three courses of the answers. -/
theorem transmitOffersAPrefixOnce : Obligations.TransmitOffersAPrefixOnce := by
  intro F s h
  rcases answers_cases 10 s.writeAnswers with ⟨rest, ha⟩ | ⟨k, hk, rest, ha⟩ | ⟨k, hk, rest, hr, ha⟩
  · exact ⟨_, exec_transmit_accepted h ha, .inl ⟨h, rfl, rfl, rfl⟩⟩
  · exact ⟨_, exec_transmit_rejected (k := ⟨k, hk⟩) h ha, .inr (.inl ⟨⟨k, hk⟩, h, rfl, rfl, rfl⟩)⟩
  · exact ⟨_, exec_transmit_unanswered (k := ⟨k, hk⟩) h hr ha, .inr (.inr ⟨⟨k, hk⟩, rfl, rfl, rfl, rfl⟩)⟩

/-- Settles O19: with ten answers ready the course on which one is missing is excluded. -/
theorem transmitEndsWithinTenAnswers : Obligations.TransmitEndsWithinTenAnswers := by
  intro F s as rest h hl ha
  rcases answers_cases 10 s.writeAnswers with ⟨rest', hw⟩ | ⟨k, hk, rest', hw⟩ | ⟨k, hk, rest', hr, hw⟩
  · exact ⟨_, exec_transmit_accepted h hw, h, .inl rfl, 10, le_rfl, by simp [hw]⟩
  · refine ⟨_, exec_transmit_rejected (k := ⟨k, hk⟩) h hw, h, .inr rfl, k + 1, hk, ?_⟩
    rw [hw, ← List.drop_drop, List.drop_left' (by simp)]
    rfl
  · obtain ⟨a, later, rfl⟩ := answered_of_ready (by omega) (ha.symm.trans hw)
    rcases hr with hr | ⟨_, hr⟩ <;> cases hr

/-- Settles O18: `send` completes with no `transmit` in progress, and it leaves what the transmitter leaves. -/
theorem sendCompletesAndLeavesTheReassembler : Obligations.SendCompletesAndLeavesTheReassembler := by
  intro v s h
  obtain ⟨hbuf, hcursor, hcalls, hread, hconsumed⟩ := sendOp_txFrame v s
  exact ⟨_, (exec_send v s).trans (onTransmitter_idle h _), hbuf, hcursor, hcalls, hread, hconsumed⟩

/-- Settles O20: after `k` acceptances the `transmit` waits, and no turn changes that. -/
theorem stalledTransmitNeverEnds : Obligations.StalledTransmitNeverEnds := by
  intro F s k n h hcreate ha
  obtain ⟨t, ht, hact, hframe, hidx, hwrites, hans, hcalls⟩ := exec_transmit_stalled (F := F) h ha
  obtain ⟨u, hu, hsu⟩ := steps_stalled n (stalledAs_refl hact hans (hcalls ▸ hcreate))
  refine ⟨t, u, ht, hact, hframe, hidx, hwrites, hu, hsu.txActive, hsu.txframe.trans hframe, hsu.txidx.trans hidx,
    hsu.writes, fun hc => ?_⟩
  exact Host.Outcome.next.inj (hu.symm.trans (steps_stalled_no_call n hact hans (hcalls.trans hc)))

/-- Settles O21: the loop starts from one and the same state, on the answers with the waiting turns and without. -/
theorem waitingDoesNotChangeATransmit : Obligations.WaitingDoesNotChangeATransmit := by
  intro F s h hc
  obtain ⟨n, u, hn, hanswers, hrest⟩ := steps_txLoop_filter s.writeAnswers (s := s.setTx F 0 true) rfl hc
  refine ⟨n, _, u, _, (exec_transmit F s).trans (onTransmitter_idle h _), hn, ?_, hanswers, hrest⟩
  have hexec := (exec_transmit F (s.setWriteAnswers (s.writeAnswers.filter Option.isSome))).trans
    (onTransmitter_idle (s := s.setWriteAnswers (s.writeAnswers.filter Option.isSome)) h _)
  rwa [transmitOp_setWriteAnswers] at hexec

end
end

section
/-! PROOFS. The step (spec/00_scope.md section 6): which request a step runs, what it refuses, what it returns, and what it
does not depend on. -/

namespace Sys2Proof.Machine

/-! ### Accepting a request -/

theorem acceptCall_encode {v : PortMessage} {m : Message} (h : v.resolve = some m) (s : State) :
    acceptCall (.encode v) s = .run m.instr s := by
  simp [acceptCall, PortMessage.run, h]

theorem acceptCall_send {v : PortMessage} {m : Message} (h : v.resolve = some m) (s : State) :
    acceptCall (.send v) s = .run (.send m) s := by
  simp [acceptCall, PortMessage.run, h]

/-- An enumeration byte that does not convert builds no message, for `encode` and for `send` (R279). -/
theorem acceptCall_unresolved {c : Call} {v : PortMessage} (hc : c = .encode v ∨ c = .send v) (h : v.resolve = none)
    (s : State) : acceptCall c s = .done (s.report .conversionFailure) := by
  rcases hc with rfl | rfl <;> simp [acceptCall, PortMessage.run, h]

theorem acceptCall_pattern_ok {bytes : List Byte} {i : Instr} (h : decode bytes = .ok i) (s : State) :
    acceptCall (.pattern bytes) s = .run i s := by
  simp [acceptCall, h]

theorem acceptCall_pattern_error {bytes : List Byte} {e : DecodeError} (h : decode bytes = .error e) (s : State) :
    acceptCall (.pattern bytes) s = .undecodable e := by
  simp [acceptCall, h]

/-- The outcome of a conversion (R130). -/
def conversionResult (k : EnumKind) (b : Byte) : Result :=
  match k.convert b with
  | some m => .converted m
  | none => .conversionFailure

theorem acceptCall_convert (k : EnumKind) (b : Byte) (s : State) :
    acceptCall (.convert k b) s = .done (s.report (conversionResult k b)) := by
  cases hk : k.convert b <;> simp [acceptCall, conversionResult, hk]

theorem conversionResult_cases (k : EnumKind) (b : Byte) :
    (∃ m, conversionResult k b = .converted m ∧ k.convert b = some m) ∨
      (conversionResult k b = .conversionFailure ∧ k.convert b = none) := by
  unfold conversionResult
  cases k.convert b with
  | some m => exact .inl ⟨m, rfl, rfl⟩
  | none => exact .inr ⟨rfl, rfl⟩

/-! ### A request on the three states of the transmitter that let it run -/

section Request

variable {s : State} {c : Call} {rest : List Call}

theorem nextMove_no_request (h : s.txActive = false) (hc : s.calls = []) : nextMove s = .wait s := by
  simp [nextMove, nextCall, h, hc]

theorem step_request {i : Instr} {t : State} (h : s.txActive = false) (hc : s.calls = c :: rest)
    (ha : acceptCall c (s.setCalls rest) = .run i t) : step s = exec i t :=
  step_of_run ((nextMove_request h hc).trans ha)

theorem step_request_done {t : State} (h : s.txActive = false) (hc : s.calls = c :: rest)
    (ha : acceptCall c (s.setCalls rest) = .done t) : step s = .next t :=
  step_of_done ((nextMove_request h hc).trans ha)

/-- A request that is not the transmitter's runs too where the transport gives no answer, now or ever. -/
theorem nextMove_other_unanswered (h : s.txActive = true) (ha : s.writeAnswers = []) (hc : s.calls = c :: rest)
    (hagent : c.agent ≠ some .transmitter) : nextMove s = acceptCall c (s.setCalls rest) :=
  (nextMove_unanswered h ha).trans (turnWhileWaiting_other hc hagent)

theorem nextMove_other_waiting {later : List (Option WriteAnswer)} (h : s.txActive = true)
    (ha : s.writeAnswers = none :: later) (hc : s.calls = c :: rest) (hagent : c.agent ≠ some .transmitter) :
    nextMove s = acceptCall c ((s.setWriteAnswers later).setCalls rest) :=
  (nextMove_waiting h ha).trans (turnWhileWaiting_other hc hagent)

end Request

/-! ### Placed patterns -/

theorem placePattern_byte (s : State) (b : Byte) :
    placePattern s [b] =
      ((s.setTx s.txframe s.txidx false).setCalls (.rxStep :: s.calls)).setReadAnswers (.byte b :: s.readAnswers) := rfl

theorem placePattern_frame (s : State) {bytes : List Byte} (h : bytes.length = 10) :
    placePattern s bytes = (s.setTx s.txframe s.txidx false).setCalls (.pattern bytes :: s.calls) := by
  unfold placePattern
  split
  · cases h
  · rfl

/-- The next step runs what the placed pattern decodes to. -/
theorem step_placePattern {bytes : List Byte} {i : Instr} (h : decode bytes = .ok i) (s : State) :
    step (placePattern s bytes) = exec i { s with txActive := false } := by
  rcases decode_ok_cases h with ⟨b, rfl, rfl⟩ | ⟨hl, -⟩
  · rw [placePattern_byte]
    have hs := step_request (s := (placePattern s [b])) (c := .rxStep) (rest := s.calls) rfl rfl
      (acceptCall_rxStep_cons (a := .byte b) (rs := s.readAnswers) rfl)
    exact hs
  · rw [placePattern_frame s hl]
    exact step_request (c := .pattern bytes) rfl rfl (acceptCall_pattern_ok h _)

theorem decode_of_decodeTableWord {nbits w : Nat} {i : Instr} (h : decodeTableWord nbits w = some i) :
    decode (patternBytes nbits w) = .ok i := by
  unfold decodeTableWord at h
  cases hd : decode (patternBytes nbits w) with
  | ok j => rw [hd] at h; cases h; rfl
  | error e => rw [hd] at h; cases h

/-! ### The operations by agent (R12, R31, R62) -/

/-- An operation of the transmitter passes the guard first. -/
theorem exec_transmitter {i : Instr} (hi : isTransmitterOp i) :
    ∃ k : State → State, (∀ s, exec i s = onTransmitter s k) ∧ ∀ s, TxFrame s (k s) := by
  rcases hi with ⟨v, rfl⟩ | ⟨F, rfl⟩ | ⟨v, rfl⟩
  · refine ⟨_, exec_message v, fun s => ?_⟩
    cases encodeMessage v <;> exact report_txFrame s _
  · exact ⟨_, exec_transmit F, transmitOp_txFrame F⟩
  · exact ⟨_, exec_send v, sendOp_txFrame v⟩

/-- Every instruction is an operation of one of the agents; a marker given to RX_DATA acts as the marker. -/
theorem exec_by_agent (i : Instr) : isTransmitterOp i ∨ ∃ a, ∀ s, exec i s = .next (rxAnswerOp a s) := by
  rcases i.cases_rows with h | h | h | rfl | rfl | ⟨b, rfl⟩ | rfl | rfl
  · exact .inl (.inl h)
  · exact .inl (.inr (.inl h))
  · exact .inl (.inr (.inr h))
  · exact .inr ⟨.byte 0x7E, exec_readAnswer_eq (.byte 0x7E)⟩
  · exact .inr ⟨.byte 0xEF, exec_readAnswer_eq (.byte 0xEF)⟩
  · refine .inr ⟨.byte b, fun s => ?_⟩
    rw [← exec_readAnswer_eq]
    by_cases hs : b = 0x7E
    · subst hs; rfl
    · by_cases he : b = 0xEF
      · subst he; rfl
      · rw [ReadAnswer.instr, decodeRxByte_data hs he]
  · exact .inr ⟨.noData, exec_readAnswer_eq .noData⟩
  · exact .inr ⟨.readError, exec_readAnswer_eq .readError⟩

/-! ### The record -/

/-- `t` has the record of `s` with at most one outcome and one byte taken more, and with its writes as a beginning. -/
structure RecordGrows (s t : State) : Prop where
  outcomes : t.outcomes = s.outcomes ∨ ∃ r, t.outcomes = s.outcomes ++ [r]
  consumed : t.consumed = s.consumed ∨ ∃ b, t.consumed = s.consumed ++ [b]
  writes : s.writes <+: t.writes

theorem report_recordGrows (s : State) (r : Result) : RecordGrows s (s.report r) :=
  ⟨.inr ⟨r, rfl⟩, .inl rfl, List.prefix_rfl⟩

theorem txRun_recordGrows (s : State) : RecordGrows s (txRun s) := by
  obtain ⟨hw, ho⟩ := txLoop_record s.writeAnswers s
  refine ⟨?_, .inl (txRun_txFrame s).consumed, hw⟩
  rcases ho with h | h | h
  · exact .inl h
  · exact .inr ⟨_, h⟩
  · exact .inr ⟨_, h⟩

theorem transmitOp_recordGrows (F : Frame) (s : State) : RecordGrows s (transmitOp F s) := by
  obtain ⟨ho, hc, hw⟩ := txRun_recordGrows (s.setTx F 0 true)
  exact ⟨ho, hc, hw⟩

theorem sendOp_recordGrows (v : Message) (s : State) : RecordGrows s (sendOp v s) := by
  rcases sendOp_cases v s with ⟨F, -, h⟩ | h <;> rw [h]
  · exact transmitOp_recordGrows F s
  · exact report_recordGrows s _

theorem rxAnswerOp_recordGrows (a : ReadAnswer) (s : State) : RecordGrows s (rxAnswerOp a s) := by
  cases a with
  | byte b => exact ⟨.inr ⟨_, rfl⟩, .inr ⟨b, rfl⟩, List.prefix_rfl⟩
  | noData => exact rxAnswerOp_noData s ▸ report_recordGrows s _
  | readError => exact rxAnswerOp_readError s ▸ report_recordGrows s _

/-- Taking requests and answers leaves the record. -/
theorem Taken.recordGrows {s s₀ t : State} (h₀ : Taken s s₀) (h : RecordGrows s₀ t) : RecordGrows s t := by
  obtain ⟨ho, hc, hw⟩ := h
  rw [h₀.outcomes] at ho
  rw [h₀.consumed] at hc
  rw [h₀.writes] at hw
  exact ⟨ho, hc, hw⟩

theorem step_recordGrows {s t : State} (h : step s = .next t) : RecordGrows s t := by
  rcases step_next_cases h with ⟨s₀, h₀, rfl⟩ | ⟨-, rfl⟩ |
    ⟨s₀, h₀, -, ⟨v, hv⟩ | ⟨F, rfl⟩ | ⟨v, rfl⟩⟩ | ⟨s₀, a, h₀, ha⟩ | ⟨s₀, r, h₀, rfl⟩ | ⟨s₀, h₀, -, rfl⟩
  · exact h₀.recordGrows ⟨.inl rfl, .inl rfl, List.prefix_rfl⟩
  · exact txRun_recordGrows s
  · obtain ⟨-, r, rfl, -, -⟩ := encodeOp_next hv
    exact h₀.recordGrows (report_recordGrows s₀ r)
  · exact h₀.recordGrows (transmitOp_recordGrows F s₀)
  · exact h₀.recordGrows (sendOp_recordGrows v s₀)
  · rw [exec_readAnswer_eq] at ha
    cases ha
    exact h₀.recordGrows (rxAnswerOp_recordGrows a s₀)
  · exact h₀.recordGrows (report_recordGrows s₀ r)
  · exact h₀.recordGrows ⟨.inl rfl, .inl rfl, List.prefix_rfl⟩

/-! ### The record is not read -/

/-- The two states differ in the record at most. -/
def SameButRecord (s t : State) : Prop := s.unrecorded = t.unrecorded

section SameButRecord

variable {s t : State}

/-- What is computed from the unrecorded state alone agrees. -/
theorem SameButRecord.congr {α : Type} (h : SameButRecord s t) (f : State → α) : f s.unrecorded = f t.unrecorded :=
  congrArg f h

theorem SameButRecord.report (h : SameButRecord s t) (r r' : Result) : SameButRecord (s.report r) (t.report r') := h

theorem SameButRecord.setTx (h : SameButRecord s t) (F : Frame) (idx : Fin 11) (act : Bool) :
    SameButRecord (s.setTx F idx act) (t.setTx F idx act) := h.congr (·.setTx F idx act)

theorem SameButRecord.setCalls (h : SameButRecord s t) (cs : List Call) : SameButRecord (s.setCalls cs) (t.setCalls cs) :=
  h.congr (·.setCalls cs)

theorem SameButRecord.setWriteAnswers (h : SameButRecord s t) (as : List (Option WriteAnswer)) :
    SameButRecord (s.setWriteAnswers as) (t.setWriteAnswers as) := h.congr (·.setWriteAnswers as)

theorem SameButRecord.setReadAnswers (h : SameButRecord s t) (rs : List ReadAnswer) :
    SameButRecord (s.setReadAnswers rs) (t.setReadAnswers rs) := h.congr (·.setReadAnswers rs)

theorem SameButRecord.create (h : SameButRecord s t) : SameButRecord s.create t.create := h.congr State.create

theorem SameButRecord.txActive (h : SameButRecord s t) : s.txActive = t.txActive := h.congr State.txActive

theorem SameButRecord.calls (h : SameButRecord s t) : s.calls = t.calls := h.congr State.calls

theorem SameButRecord.writeAnswers (h : SameButRecord s t) : s.writeAnswers = t.writeAnswers :=
  h.congr State.writeAnswers

theorem SameButRecord.readAnswers (h : SameButRecord s t) : s.readAnswers = t.readAnswers := h.congr State.readAnswers

theorem SameButRecord.rxAnswerOp (h : SameButRecord s t) (a : ReadAnswer) :
    SameButRecord (rxAnswerOp a s) (rxAnswerOp a t) :=
  h.congr fun u => (Machine.rxAnswerOp a u).unrecorded

theorem SameButRecord.txRun (h : SameButRecord s t) : SameButRecord (txRun s) (txRun t) := by
  obtain ⟨idx, act, rest, ws, rs, heff⟩ := txLoop_effect s.writeAnswers s.txframe s.txidx s.txActive
  have hs := heff s rfl rfl rfl
  have ht := heff t (h.congr State.txframe).symm (h.congr State.txidx).symm h.txActive.symm
  unfold SameButRecord Machine.txRun
  rw [← h.writeAnswers, hs, ht]
  exact h.congr fun u => { u with txidx := idx, txActive := act, writeAnswers := rest }

theorem SameButRecord.transmitOp (h : SameButRecord s t) (F : Frame) :
    SameButRecord (transmitOp F s) (transmitOp F t) := (h.setTx F 0 true).txRun

theorem SameButRecord.sendOp (h : SameButRecord s t) (v : Message) : SameButRecord (sendOp v s) (sendOp v t) := by
  cases hF : encodeMessage v with
  | some F => rw [sendOp_some hF, sendOp_some hF]; exact h.transmitOp F
  | none => rw [sendOp_none hF, sendOp_none hF]; exact h.report _ _

end SameButRecord

/-- Two outcomes of a step that are next states alike but for the record, or one refusal. -/
inductive AlikeOutcome : Host.Outcome State Fault Refusal → Host.Outcome State Fault Refusal → Prop where
  | next {s t} (h : SameButRecord s t) : AlikeOutcome (.next s) (.next t)
  | refused (r : Refusal) : AlikeOutcome (.refused r) (.refused r)

/-- Two moves that are the same but for the record of the state they carry. -/
inductive AlikeMove : Move → Move → Prop where
  | wait {s t} (h : SameButRecord s t) : AlikeMove (.wait s) (.wait t)
  | resume : AlikeMove .resume .resume
  | run (i : Instr) {s t} (h : SameButRecord s t) : AlikeMove (.run i s) (.run i t)
  | done {s t} (h : SameButRecord s t) : AlikeMove (.done s) (.done t)
  | undecodable (e : DecodeError) : AlikeMove (.undecodable e) (.undecodable e)

section Alike

variable {s t : State}

theorem onTransmitter_alike (h : SameButRecord s t) {k : State → State}
    (hk : SameButRecord (k s) (k t)) : AlikeOutcome (onTransmitter s k) (onTransmitter t k) := by
  cases ha : s.txActive with
  | true => rw [onTransmitter_busy ha, onTransmitter_busy (h.txActive.symm.trans ha)]; exact .refused _
  | false => rw [onTransmitter_idle ha, onTransmitter_idle (h.txActive.symm.trans ha)]; exact .next hk

theorem exec_alike (h : SameButRecord s t) (i : Instr) : AlikeOutcome (exec i s) (exec i t) := by
  rcases exec_by_agent i with (⟨v, rfl⟩ | ⟨F, rfl⟩ | ⟨v, rfl⟩) | ⟨a, ha⟩
  · rw [exec_message, exec_message]
    refine onTransmitter_alike h ?_
    cases encodeMessage v <;> exact h.report _ _
  · exact onTransmitter_alike h (h.transmitOp F)
  · exact onTransmitter_alike h (h.sendOp v)
  · rw [ha, ha]; exact .next (h.rxAnswerOp a)

theorem portMessage_run_alike (h : SameButRecord s t) (v : PortMessage) (mk : Message → Instr) :
    AlikeMove (v.run mk s) (v.run mk t) := by
  unfold PortMessage.run
  cases v.resolve with
  | some m => exact .run _ h
  | none => exact .done (h.report _ _)

theorem acceptCall_alike (h : SameButRecord s t) (c : Call) : AlikeMove (acceptCall c s) (acceptCall c t) := by
  cases c with
  | encode v => exact portMessage_run_alike h v Message.instr
  | transmit F => exact .run _ h
  | send v => exact portMessage_run_alike h v Instr.send
  | rxStep =>
    match hr : s.readAnswers with
    | [] => rw [acceptCall_rxStep_nil hr, acceptCall_rxStep_nil (h.readAnswers.symm.trans hr)]; exact .run _ h
    | a :: rs =>
      rw [acceptCall_rxStep_cons hr, acceptCall_rxStep_cons (h.readAnswers.symm.trans hr)]
      exact .run _ (h.setReadAnswers rs)
  | convert k b => rw [acceptCall_convert, acceptCall_convert]; exact .done (h.report _ _)
  | create => exact .done h.create
  | pattern bytes =>
    cases hd : decode bytes with
    | ok i => rw [acceptCall_pattern_ok hd, acceptCall_pattern_ok hd]; exact .run i h
    | error e => rw [acceptCall_pattern_error hd, acceptCall_pattern_error hd]; exact .undecodable e

theorem turnWhileWaiting_alike (h : SameButRecord s t) : AlikeMove (turnWhileWaiting s) (turnWhileWaiting t) := by
  match hc : s.calls with
  | [] => rw [turnWhileWaiting_no_call hc, turnWhileWaiting_no_call (h.calls.symm.trans hc)]; exact .wait h
  | c :: rest =>
    have hc' := h.calls.symm.trans hc
    by_cases ha : c.agent = some .transmitter
    · rw [turnWhileWaiting_transmitter hc ha, turnWhileWaiting_transmitter hc' ha]; exact .wait h
    · rw [turnWhileWaiting_other hc ha, turnWhileWaiting_other hc' ha]; exact acceptCall_alike (h.setCalls rest) c

theorem nextMove_alike (h : SameButRecord s t) : AlikeMove (nextMove s) (nextMove t) := by
  cases ha : s.txActive with
  | true =>
    have ha' := h.txActive.symm.trans ha
    match hw : s.writeAnswers with
    | some a :: later =>
      rw [nextMove_answered ha hw, nextMove_answered ha' (h.writeAnswers.symm.trans hw)]; exact .resume
    | none :: later =>
      rw [nextMove_waiting ha hw, nextMove_waiting ha' (h.writeAnswers.symm.trans hw)]
      exact turnWhileWaiting_alike (h.setWriteAnswers later)
    | [] =>
      rw [nextMove_unanswered ha hw, nextMove_unanswered ha' (h.writeAnswers.symm.trans hw)]
      exact turnWhileWaiting_alike h
  | false =>
    have ha' := h.txActive.symm.trans ha
    match hc : s.calls with
    | [] => rw [nextMove_no_request ha hc, nextMove_no_request ha' (h.calls.symm.trans hc)]; exact .wait h
    | c :: rest =>
      rw [nextMove_request ha hc, nextMove_request ha' (h.calls.symm.trans hc)]
      exact acceptCall_alike (h.setCalls rest) c

theorem step_alike (h : SameButRecord s t) : AlikeOutcome (step s) (step t) := by
  have hm := nextMove_alike h
  unfold step
  revert hm
  generalize nextMove s = m, nextMove t = m'
  intro hm
  cases hm with
  | wait h₀ => exact .next h₀
  | resume => exact .next h.txRun
  | run i h₀ => exact exec_alike h₀ i
  | done h₀ => exact .next h₀
  | undecodable e => exact .refused _

end Alike

end Sys2Proof.Machine

section
open Sys2Proof Sys2Proof.Machine

/-- Settles O1: each field of the reset state is written out. -/
theorem resetLeavesTheBlockIdle : Obligations.ResetLeavesTheBlockIdle :=
  ⟨State.reset_cursor, fun i => State.reset_buf_get i.val i.isLt, State.reset_txActive, State.reset_writes,
    State.reset_consumed⟩

/-- Settles O2: a creation belongs to no agent, so it has its turn on an idle transmitter and on one that gets no answer. -/
theorem creationRestoresTheResetRegisters : Obligations.CreationRestoresTheResetRegisters := by
  intro s rest hc
  refine ⟨fun h => ?_, fun h ha => ?_, fun later h ha => ?_, fun a later h ha => step_answered h ha⟩
  · refine (step_request_done h hc rfl).trans ?_
    rw [h]; rfl
  · exact step_of_done (nextMove_other_unanswered h ha hc nofun)
  · exact step_of_done (nextMove_other_waiting h ha hc nofun)

/-- Settles O23: without an answer the turn passes; with one the loop goes on, and its first write is that answer's. -/
theorem transmitterRequestsWaitForTheRunningTransmit : Obligations.TransmitterRequestsWaitForTheRunningTransmit := by
  intro s c rest h hc hagent
  refine ⟨fun ha => ?_, fun later ha => ?_, fun a later ha => ?_⟩
  · exact step_of_wait ((nextMove_unanswered h ha).trans (turnWhileWaiting_transmitter hc hagent))
  · exact step_of_wait ((nextMove_waiting h ha).trans (turnWhileWaiting_transmitter hc hagent))
  · obtain ⟨hstep, hcalls⟩ := step_answered h ha
    refine ⟨hstep, hcalls, fun k hk => ?_⟩
    have hw := txRun_first_write ha (by rw [hk]; exact k.isLt)
    simpa [hk] using hw

/-- Settles O24: an `rx_step` is not the transmitter's, so it has the turn that the transport leaves. -/
theorem reassemblerRunsWhileATransmitWaits : Obligations.ReassemblerRunsWhileATransmitWaits := by
  intro s a rs rest h hc hr
  exact ⟨fun ha => step_of_run ((nextMove_other_unanswered h ha hc nofun).trans (acceptCall_rxStep_cons hr)),
    fun later ha => step_of_run ((nextMove_other_waiting h ha hc nofun).trans (acceptCall_rxStep_cons hr))⟩

/-- Settles O25: the guard stops the transmitter's operations, and no row of `rx_step` has a guard. -/
theorem overlappingTransmitterOperationsAreRefused : Obligations.OverlappingTransmitterOperationsAreRefused := by
  intro s i h
  refine ⟨fun hi => ?_, ?_⟩
  · obtain ⟨k, hk, -⟩ := exec_transmitter hi
    rw [hk, onTransmitter_busy h]
  · rintro ⟨a, rfl⟩
    exact ⟨_, exec_readAnswer_eq a s, rfl, rfl, h⟩

/-- Settles O50: a conversion belongs to no agent and only reports; a byte that does not convert resolves to no message. -/
theorem failedConversionBuildsNoCommand : Obligations.FailedConversionBuildsNoCommand := by
  intro s rest b
  refine ⟨fun k hc => ⟨conversionResult k b, conversionResult_cases k b, ?_, ?_, ?_⟩, ?_, ?_⟩
  · intro h
    by_cases hact : s.txActive = false
    · exact step_request_done hact hc (acceptCall_convert k b _)
    · have ha := h.resolve_left hact
      have hact := Bool.not_eq_false _ ▸ hact
      exact step_of_done ((nextMove_other_unanswered hact ha hc nofun).trans (acceptCall_convert k b _))
  · intro later h ha
    exact step_of_done ((nextMove_other_waiting h ha hc nofun).trans (acceptCall_convert k b _))
  · exact fun a later h ha => step_answered h ha
  · intro h hb hc
    have hnone : (PortMessage.equalizerByte b).resolve = none :=
      Option.map_eq_none_iff.2 (Equalizer.ofByte_eq_none_iff.2 hb)
    rcases hc with hc | hc
    · exact step_request_done h hc (acceptCall_unresolved (.inl rfl) hnone _)
    · exact step_request_done h hc (acceptCall_unresolved (.inr rfl) hnone _)
  · intro h hb hc
    have hnone : (PortMessage.playbackModeByte b).resolve = none :=
      Option.map_eq_none_iff.2 (PlaybackMode.ofByte_eq_none_iff.2 hb)
    rcases hc with hc | hc
    · exact step_request_done h hc (acceptCall_unresolved (.inl rfl) hnone _)
    · exact step_request_done h hc (acceptCall_unresolved (.inr rfl) hnone _)

/-- Settles O51: on an idle transmitter each form of request is accepted as the row it names. -/
theorem stepRunsTheDecodedInstruction : Obligations.StepRunsTheDecodedInstruction := by
  intro s rest h
  refine ⟨fun v hc => step_request h hc rfl, fun F hc => step_request h hc rfl, fun v hc => step_request h hc rfl,
    ?_, ?_, ?_, ?_, ?_, ?_, ?_, ?_⟩
  · rintro b e rfl
    have hv : (PortMessage.equalizerByte e.code).resolve = some (.command (.specifyEqualizer e)) := by
      simp [PortMessage.resolve]
    exact ⟨fun hc => step_request h hc (acceptCall_encode hv _), fun hc => step_request h hc (acceptCall_send hv _)⟩
  · rintro b m rfl
    have hv : (PortMessage.playbackModeByte m.code).resolve = some (.command (.specifyPlaybackMode m)) := by
      simp [PortMessage.resolve]
    exact ⟨fun hc => step_request h hc (acceptCall_encode hv _), fun hc => step_request h hc (acceptCall_send hv _)⟩
  · intro b rs i hc hr hd
    cases hd
    exact step_request h hc (acceptCall_rxStep_cons (s := s.setCalls rest) hr)
  · exact fun rs hc hr => step_request h hc (acceptCall_rxStep_cons (s := s.setCalls rest) hr)
  · exact fun rs hc hr => step_request h hc (acceptCall_rxStep_cons (s := s.setCalls rest) hr)
  · exact fun hc hr => step_request h hc (acceptCall_rxStep_nil hr)
  · exact fun bytes i hc hd => step_request h hc (acceptCall_pattern_ok hd _)
  · exact fun bytes e hc hd => step_of_undecodable ((nextMove_request h hc).trans (acceptCall_pattern_error hd _))

/-- Settles O52: the placed pattern is the next request, or the next received byte. -/
theorem placedPatternRunsNext : Obligations.PlacedPatternRunsNext := by
  intro s nbits w i h
  exact step_placePattern (decode_of_decodeTableWord h) s

/-- Settles O53: what a step runs of the transmitter it runs on an idle one, and an `rx_step` always completes. -/
theorem stepStopsOnlyOnAnUndecodablePattern : Obligations.StepStopsOnlyOnAnUndecodablePattern := by
  intro s
  have htx {i : Instr} {s₀ : State} (hm : nextMove s = .run i s₀) (h₀ : Taken s s₀) (hidle : s.txActive = false)
      (hi : isTransmitterOp i) : ∃ t, step s = .next t := by
    obtain ⟨k, hk, -⟩ := exec_transmitter hi
    exact ⟨_, (step_of_run hm).trans ((hk s₀).trans (onTransmitter_idle (h₀.txActive.trans hidle) k))⟩
  have hr := nextMove_ran s
  generalize hm : nextMove s = m at hr
  cases hr with
  | wait h₀ => exact .inl ⟨_, step_of_wait hm⟩
  | resume h => exact .inl ⟨_, step_of_resume hm⟩
  | message h₀ hidle v => exact .inl (htx hm h₀ hidle (.inl ⟨v, rfl⟩))
  | transmit h₀ hidle F => exact .inl (htx hm h₀ hidle (.inr (.inl ⟨F, rfl⟩)))
  | send h₀ hidle v => exact .inl (htx hm h₀ hidle (.inr (.inr ⟨v, rfl⟩)))
  | rx h₀ a => exact .inl ⟨_, (step_of_run hm).trans (exec_readAnswer_eq a _)⟩
  | report h₀ r => exact .inl ⟨_, step_of_done hm⟩
  | create h₀ hc => exact .inl ⟨_, step_of_done hm⟩
  | undecodable hc hd => exact .inr ⟨_, _, _, hc, hd, step_of_undecodable hm⟩

/-- Settles O54: each agent's operations keep the other agent's frame, and `encode` only reports. -/
theorem theTwoAgentsShareNoState : Obligations.TheTwoAgentsShareNoState := by
  intro i s t h
  refine ⟨fun hi => ?_, ?_, ?_⟩
  · obtain ⟨k, hk, hframe⟩ := exec_transmitter hi
    obtain ⟨-, rfl⟩ := onTransmitter_next ((hk s).symm.trans h)
    obtain ⟨hbuf, hcursor, -, hread, hconsumed⟩ := hframe s
    exact ⟨hbuf, hcursor, hread, hconsumed⟩
  · rintro ⟨a, rfl⟩
    obtain ⟨hframe, hidx, hact, -, hans, -, hwrites⟩ := exec_readAnswer_frame h
    exact ⟨hframe, hidx, hact, hans, hwrites⟩
  · rintro v rfl
    obtain ⟨-, r, rfl, -, -⟩ := encodeOp_next ((exec_message v s).symm.trans h)
    exact ⟨rfl, rfl, rfl, rfl, rfl⟩

/-- Settles O56: the `rx_step` writes nothing the loop's effect depends on, and the loop writes neither `buf` nor
`cursor`. -/
theorem theAgentsCommute : Obligations.TheAgentsCommute := by
  intro a s
  obtain ⟨idx, act, rest, ws, rs, heff⟩ := txLoop_effect s.writeAnswers s.txframe s.txidx s.txActive
  have hs : txRun s = _ := heff s rfl rfl rfl
  have ht : txRun (rxAnswerOp a s) = _ := heff (rxAnswerOp a s) rfl rfl rfl
  refine ⟨_, _, exec_readAnswer_eq a s, exec_readAnswer_eq a (txRun s), ?_, ?_⟩
  · rw [hs, ht]; rfl
  · rw [hs, ht]
    simp only [rxAnswerOp, List.append_assoc]
    exact List.perm_append_comm.append_left _

/-- Settles O57: each kind of step lets the record grow by what it returns and takes. -/
theorem aStepReturnsAtMostOneOutcome : Obligations.AStepReturnsAtMostOneOutcome := by
  intro s t h
  obtain ⟨ho, hc, hw⟩ := step_recordGrows h
  exact ⟨ho, hc, hw⟩

/-- Settles O58: alike states make alike moves, and alike moves end alike. -/
theorem theRecordIsNeverRead : Obligations.TheRecordIsNeverRead := by
  intro s s' t h
  have ha := step_alike h
  refine ⟨fun hs => ?_, fun r hs => ?_⟩
  · rw [hs] at ha
    generalize step s' = o at ha
    cases ha with
    | next h₀ => exact ⟨_, rfl, h₀⟩
  · rw [hs] at ha
    generalize step s' = o at ha
    cases ha
    rfl

end
end
